-- ==== Sys2Proof/Word.lean ====
section
/-! DEFINITION. The machine's two word types (spec/00_scope.md R12). -/

namespace Sys2Proof

/-- `u8`: a register, a memory cell, an operand byte (R12). -/
abbrev Byte := BitVec 8

/-- `u16`: PC and every address a rule computes (R12). -/
abbrev Addr := BitVec 16

end Sys2Proof
end

