-- ==== Sys2Proof/Format.lean ====
section
/-! DEFINITION. The names the opcode table uses: the 56 mnemonics (spec/00_scope.md R3) and the thirteen addressing modes
(spec/30_encoding.md R81), each mode with the operand its bytes give. -/

namespace Sys2Proof

/-- The 56 instruction names (R3). -/
inductive Mnemonic where
  | adc | and | asl | bcc | bcs | beq | bit | bmi | bne | bpl | brk | bvc | bvs | clc
  | cld | cli | clv | cmp | cpx | cpy | dec | dex | dey | eor | inc | inx | iny | jmp
  | jsr | lda | ldx | ldy | lsr | nop | ora | pha | php | pla | plp | rol | ror | rti
  | rts | sbc | sec | sed | sei | sta | stx | sty | tax | tay | tsx | txa | txs | tya
  deriving DecidableEq, Repr

/-- The eight addressing modes that name a byte of memory (spec/40_addressing_modes.md R104 to R111). -/
inductive MemMode where
  | zeroPage (zp : Byte)
  | zeroPageX (zp : Byte)
  | zeroPageY (zp : Byte)
  | absolute (addr : Addr)
  | absoluteX (addr : Addr)
  | absoluteY (addr : Addr)
  | indexedIndirectX (zp : Byte)
  | indirectIndexedY (zp : Byte)
  deriving DecidableEq, Repr

/-- The thirteen addressing modes (R81): the eight above and the five that name no byte of memory to operate on. -/
inductive Operand where
  | implied
  | accumulator
  | immediate (imm : Byte)
  | memory (m : MemMode)
  | absoluteIndirect (ptr : Addr)
  | relative (rel : Byte)
  deriving DecidableEq, Repr

/-- The names of the thirteen modes, without their operands (R81). -/
inductive Mode where
  | implied
  | accumulator
  | immediate
  | zeroPage
  | zeroPageX
  | zeroPageY
  | absolute
  | absoluteX
  | absoluteY
  | indexedIndirectX
  | indirectIndexedY
  | absoluteIndirect
  | relative
  deriving DecidableEq, Repr

/-- What a reading instruction reads: the immediate byte, or a byte of memory (spec/40_addressing_modes.md R100, R103). -/
inductive Source where
  | immediate (imm : Byte)
  | memory (m : MemMode)
  deriving DecidableEq, Repr

/-- What a shift or rotate works on: the accumulator, or a byte of memory (spec/43_shift_incdec.md R160). -/
inductive Target where
  | accumulator
  | memory (m : MemMode)
  deriving DecidableEq, Repr

end Sys2Proof
end

