-- ==== Sys2Proof/Machine/Bytes.lean ====
section
/-! DEFINITION. Byte order, bit slices and extension (spec/00_scope.md R11, R12; spec/20_memory.md R55). -/

namespace Sys2Proof.Machine

/-- `hi:lo`, the u16 whose low-order byte is `lo` (R11, R55). -/
def joinBytes (lo hi : Byte) : Addr := hi ++ lo

/-- Bits 7:0 of an address, PCL of a PC (R11). -/
def loByte (a : Addr) : Byte := a.extractLsb' 0 8

/-- Bits 15:8 of an address, PCH of a PC (R11). -/
def hiByte (a : Addr) : Byte := a.extractLsb' 8 8

/-- `zext_16` (R12). -/
def zext16 (b : Byte) : Addr := b.setWidth 16

/-- `sext_16` (R12). -/
def sext16 (b : Byte) : Addr := b.signExtend 16

/-- Bit 7, the sign and the N of a result (spec/10_state.md R30). -/
def bit7 (b : Byte) : Bool := b.getLsbD 7

/-- Is the byte zero: the Z of a result (spec/10_state.md R30). -/
def isZero (b : Byte) : Bool := b == 0#8

end Sys2Proof.Machine
end

