-- ==== Sys2Proof/Config.lean ====
section
/-! DEFINITION. What an implementation or a platform fixes (spec/00_scope.md R5, R9) as plain data, and the free values:
opaque constants that stand for the spec's `draw` (R13), which no proof can see into. -/

namespace Sys2Proof

/-- The three members of the family (R1, R5). -/
inductive Variant where
  | um6502
  | um6507
  | um6512
  deriving DecidableEq, Repr

/-- `HAS_IRQ` (R5). -/
def Variant.hasIrq : Variant → Bool
  | .um6502 => true
  | .um6507 => false
  | .um6512 => true

/-- `HAS_NMI` (R5). -/
def Variant.hasNmi : Variant → Bool
  | .um6502 => true
  | .um6507 => false
  | .um6512 => true

/-- `HAS_RDY` (R5): all three. -/
def Variant.hasRdy : Variant → Bool
  | .um6502 => true
  | .um6507 => true
  | .um6512 => true

/-- `HAS_SO` (R5). -/
def Variant.hasSo : Variant → Bool
  | .um6502 => true
  | .um6507 => false
  | .um6512 => true

/-- `HAS_DBE` (R5). The pin has no architectural state (spec/60_exceptions.md R251). -/
def Variant.hasDbe : Variant → Bool
  | .um6502 => false
  | .um6507 => false
  | .um6512 => true

/-- `HAS_SYNC` (R5). The pin has no architectural state (spec/60_exceptions.md R248). -/
def Variant.hasSync : Variant → Bool
  | .um6502 => true
  | .um6507 => false
  | .um6512 => true

/-- `ADDR_PINS` (R5): how many address lines leave the package. -/
def Variant.addrPins : Variant → Nat
  | .um6502 => 16
  | .um6507 => 13
  | .um6512 => 16

/-- How many bytes the platform sees: 64K, or 8K on the UM6507 (R5, spec/20_memory.md R51). -/
def Variant.addressSpace (v : Variant) : Nat := 2 ^ v.addrPins

/-- What sits at an address (R9 `MemoryMap`, spec/20_memory.md R52, R53). A device says whether an access to it has side
effects, the question spec/20_memory.md R59 asks. -/
inductive RegionKind where
  | ram
  | rom
  | device (sideEffects : Bool)
  | unmapped
  deriving DecidableEq, Repr

/-- The addresses `first` to `last`, as the platform sees them, all of one kind. -/
structure Region where
  first : Nat
  last : Nat
  kind : RegionKind
  deriving DecidableEq, Repr

/-- `DECIMAL_POLICY` (R9, D9). -/
inductive DecimalPolicy where
  | strict
  | nmos
  deriving DecidableEq, Repr

/-- `JMP_IND_WRAP` (R9, D11): `refuse`, `carry` and `noCarry` are the spec's. `either` is the model's own, a fourth setting
that no default has: a free value chooses between `carry` and `noCarry` (DESIGN CHOICE, log entry 9). -/
inductive JmpIndWrap where
  | refuse
  | carry
  | noCarry
  | either
  deriving DecidableEq, Repr

/-- `IRQ_MASK_LATENCY` (R9, D16). -/
inductive IrqMaskLatency where
  | both
  | new
  | old
  deriving DecidableEq, Repr

/-- The parameters of R5 and R9. `UNASSIGNED_OPCODE` has one value and `END_OF_RUN` is a predicate on states
(`runUntil` in Safety.lean), so neither is a field. -/
structure Config where
  variant : Variant
  memoryMap : List Region
  decimalPolicy : DecimalPolicy
  jmpIndWrap : JmpIndWrap
  irqMaskLatency : IrqMaskLatency
  soUsed : Bool
  dmaAgent : Bool
  deriving DecidableEq, Repr

/-- The configuration `State.reset` has: R9's defaults, on a UM6502 with ram everywhere (DESIGN CHOICE for the member and the
map, log entry 6). -/
def Config.default : Config where
  variant := .um6502
  memoryMap := []
  decimalPolicy := .strict
  jmpIndWrap := .refuse
  irqMaskLatency := .both
  soUsed := false
  dmaAgent := false

/-- What a byte is read or drawn for. Two reads or draws of one step have two names. -/
inductive ByteUse where
  | fetch (k : Nat)
  | pointerLow
  | pointerHigh
  | operand
  | pulledStatus
  | pulledLow
  | pulledHigh
  | pulledA
  | vectorLow
  | vectorHigh
  | resetA
  | resetX
  | resetY
  | resetS
  | decimalResult
  deriving DecidableEq, Repr

/-- What a drawn bit is drawn for. -/
inductive BitUse where
  | resetN
  | resetV
  | resetD
  | resetZ
  | resetC
  | decimalN
  | decimalV
  | decimalZ
  | decimalC
  | maskSeen
  | jmpIndCarries
  deriving DecidableEq, Repr

/-- `draw(u8)` (R13): the byte drawn for a use in the step with the given number. -/
opaque Config.freeByte : Nat → ByteUse → Byte

/-- `draw(bit)` (R13): the bit drawn for a use in the step with the given number. -/
opaque Config.freeBit : Nat → BitUse → Bool

end Sys2Proof
end

