-- ==== Sys2Proof/Machine/State.lean ====
section
/-! DEFINITION. The state of the machine as plain data (spec/10_state.md), the reasons a step can stop, and the state right
after reset. -/

namespace Sys2Proof.Machine

/-- The six stored flags of P. Bits 5 and 4 (B) are not storage (R26, R28). -/
structure Status where
  n : Bool
  v : Bool
  d : Bool
  i : Bool
  z : Bool
  c : Bool
  deriving DecidableEq, Repr

/-- The level of an input pin. -/
inductive Level where
  | low
  | high
  deriving DecidableEq, Repr

/-- What the environment does at one instruction boundary (spec/60_exceptions.md R252): the levels of RES, RDY and IRQ, an
NMI edge and an S.O. edge since the last boundary, and `soLate`, an S.O. edge inside the coming step after the step has
computed V (R246). Of a DMA agent (spec/20_memory.md R69): `dma`, what it has written since the last boundary, in order, by the
platform's addresses; `dmaReads`, what it puts in ram inside the coming step just before the read of the given use (what of
that stays in memory is among the next entry's `dma`). -/
structure Inputs where
  res : Level
  rdy : Level
  irq : Level
  nmiEdge : Bool
  soEdge : Bool
  soLate : Bool
  dma : List Host.Cell
  dmaReads : List (ByteUse × Byte)
  deriving DecidableEq, Repr

/-- The machine. Registers and flags: R20 to R26. `mem`: spec/20_memory.md R50, R51. Pins and latches: R33. `iBefore` and
`maskLatent`: the value P.I had before the last instruction, and whether that instruction was CLI, SEI or PLP
(spec/60_exceptions.md R229). `inReset`: RES was low at the last boundary (R252). `soLate`, `dmaReads`, `inputs` and `draws`
are the model's own: the late S.O. edge of the coming step, what a DMA agent changes inside it (spec/20_memory.md R69), the
environment's future, and the number of the next step's free values. `config` is configuration, which no step changes (R34). -/
structure State where
  a : Byte
  x : Byte
  y : Byte
  sp : Byte
  pc : Addr
  p : Status
  mem : Memory
  resLine : Level
  rdyLine : Level
  irqLine : Level
  nmiPending : Bool
  soEdge : Bool
  soLate : Bool
  inReset : Bool
  iBefore : Bool
  maskLatent : Bool
  dmaReads : List (ByteUse × Byte)
  inputs : List Inputs
  draws : Nat
  config : Config
  deriving DecidableEq, Repr

/-- The hardware raises no fault: "No instruction other than BRK can raise an exception" and no access faults
(spec/60_exceptions.md R221; spec/93_implementation_defined.md, end of Part 1). So no step of the model ends in one. -/
inductive Fault : Type
  deriving DecidableEq, Repr

/-- Why a step has no successor. Each but the first is a `refuse` of the spec (spec/00_scope.md R13); each is safe: the
model stops where hardware goes on, so it proves nothing about what hardware does there. -/
inductive Refusal where
  /-- An instruction of the table without a meaning. No arm of `exec` raises it. Safe. -/
  | notModelled (mnemonic : String)
  /-- The step fetched one of the 105 bytes the opcode table does not assign (spec/30_encoding.md R87). Safe. -/
  | unassignedOpcode (op : Byte)
  /-- An indexed, indirect, read-modify-write or stack access reached a device whose accesses have side effects: the
  hardware's further bus cycles there are not in the spec (spec/20_memory.md R59, D13). Raised by those instructions and
  by the NMI and IRQ sequences. Safe. -/
  | deviceSideEffects
  /-- JMP (indirect) with pointer low byte 0xFF where the configuration's `jmpIndWrap` is `refuse`
  (spec/40_addressing_modes.md R112). Raised by JMP (indirect). Safe. -/
  | jmpIndirectWrap
  /-- A JSR whose own bytes lie where its pushes write (spec/44_branch_jump.md R189). Raised by JSR. Safe. -/
  | jsrOverStack
  deriving DecidableEq, Repr

/-- What a step or an instruction answers. -/
abbrev Result := Host.Outcome State Fault Refusal

/-- Right after the reset sequence (R35; spec/70_reset_and_hazards.md R262, R263): I is set, `nmiPending` is clear, PC is
the word at 0xFFFC, which the empty memory reads as 0x0000 (log entry 4). A, X, Y, N, V, D, Z, C are 0 (DESIGN CHOICE,
unsafe, log entries 1 and 3) and S is 0xFD (PRESUMED, unsafe, log entry 2): the spec states no value. The pins are
inactive and nothing is queued (DESIGN CHOICE, log entry 7). -/
def State.reset : State where
  a := 0x00
  x := 0x00
  y := 0x00
  sp := 0xFD
  pc := 0x0000
  p := ⟨false, false, false, true, false, false⟩
  mem := []
  resLine := .high
  rdyLine := .high
  irqLine := .high
  nmiPending := false
  soEdge := false
  soLate := false
  inReset := false
  iBefore := true
  maskLatent := false
  dmaReads := []
  inputs := []
  draws := 0
  config := Config.default

end Sys2Proof.Machine
end

