-- ==== Sys2Proof/Machine/Flags.lean ====
section
/-! DEFINITION. The flags: the byte P is pushed as and pulled from (spec/10_state.md R28 to R30), and every result and flag
computation of spec/42_arithmetic_logic.md and spec/43_shift_incdec.md. -/

namespace Sys2Proof.Machine

/-- `PImage(b)`: bits N V 1 b D I Z C (R28, spec/00_scope.md R13). -/
def Status.image (p : Status) (b : Bool) : Byte :=
  BitVec.ofBool p.n ++ BitVec.ofBool p.v ++ 1#1 ++ BitVec.ofBool b ++
    BitVec.ofBool p.d ++ BitVec.ofBool p.i ++ BitVec.ofBool p.z ++ BitVec.ofBool p.c

/-- `SetP(v)`: the six flags from bits 7, 6, 3, 2, 1, 0; bits 5 and 4 are discarded (R29). -/
def Status.ofByte (v : Byte) : Status where
  n := v.getLsbD 7
  v := v.getLsbD 6
  d := v.getLsbD 3
  i := v.getLsbD 2
  z := v.getLsbD 1
  c := v.getLsbD 0

/-- `SetNZ(v)` (R30). -/
def Status.setNZ (p : Status) (v : Byte) : Status := { p with n := bit7 v, z := isZero v }

/-- A result with the four flags ADC and SBC write. -/
structure AluResult where
  r : Byte
  n : Bool
  v : Bool
  z : Bool
  c : Bool
  deriving DecidableEq, Repr

/-- Binary ADC of `a`, `m` and the carry (R141). -/
def addBinary (a m : Byte) (carry : Bool) : AluResult :=
  let t := a.toNat + m.toNat + carry.toNat
  let r := BitVec.ofNat 8 t
  { r := r, n := bit7 r, v := bit7 ((a ^^^ r) &&& (m ^^^ r)), z := isZero r, c := decide (256 ≤ t) }

/-- Binary SBC: binary ADC of the complement (R143). -/
def subBinary (a m : Byte) (carry : Bool) : AluResult := addBinary a (~~~m) carry

/-- The high digit of a packed BCD byte (R142). -/
def highDigit (b : Byte) : Nat := b.toNat / 16

/-- The low digit of a packed BCD byte (R142). -/
def lowDigit (b : Byte) : Nat := b.toNat % 16

/-- Are both digits at most 9 (R142). -/
def validBcd (b : Byte) : Bool := decide (highDigit b ≤ 9) && decide (lowDigit b ≤ 9)

/-- `dec(b)` (R142). -/
def bcdValue (b : Byte) : Nat := 10 * highDigit b + lowDigit b

/-- `bcd(n)` for `n` in 0..99 (R142). -/
def toBcd (n : Nat) : Byte := BitVec.ofNat 8 (16 * (n / 10) + n % 10)

/-- A decimal result under `strict` for valid operands: A and C are exact, N, V, Z are draws of step `d` (R142). -/
def strictDecimal (d : Nat) (r : Byte) (c : Bool) : AluResult where
  r := r
  n := Config.freeBit d .decimalN
  v := Config.freeBit d .decimalV
  z := Config.freeBit d .decimalZ
  c := c

/-- A decimal result under `strict` where an operand is not valid BCD: A and all four flags are draws (R142). -/
def strictInvalid (d : Nat) : AluResult :=
  strictDecimal d (Config.freeByte d .decimalResult) (Config.freeBit d .decimalC)

/-- Decimal ADC under `DECIMAL_POLICY = strict` (R142). -/
def addDecimalStrict (d : Nat) (a m : Byte) (carry : Bool) : AluResult :=
  if validBcd a && validBcd m then
    let n := bcdValue a + bcdValue m + carry.toNat
    strictDecimal d (toBcd (n % 100)) (decide (100 ≤ n))
  else strictInvalid d

/-- Decimal SBC under `DECIMAL_POLICY = strict` (R142). -/
def subDecimalStrict (d : Nat) (a m : Byte) (carry : Bool) : AluResult :=
  if validBcd a && validBcd m then
    let n : Int := bcdValue a - bcdValue m - (1 - carry.toNat)
    strictDecimal d (toBcd (n % 100).toNat) (decide (0 ≤ n))
  else strictInvalid d

/-- Decimal ADC under `DECIMAL_POLICY = nmos` (R142): N and V come from the sum before the high-digit fix, Z from the binary
sum. -/
def addDecimalNmos (a m : Byte) (carry : Bool) : AluResult :=
  let low := lowDigit a + lowDigit m + carry.toNat
  let al := if 10 ≤ low then (low + 6) % 16 + 16 else low
  let s := 16 * highDigit a + 16 * highDigit m + al
  let sb := BitVec.ofNat 8 s
  let fixed := if 0xA0 ≤ s then s + 0x60 else s
  { r := BitVec.ofNat 8 fixed, n := bit7 sb, v := bit7 ((a ^^^ sb) &&& (m ^^^ sb)),
    z := decide ((a.toNat + m.toNat + carry.toNat) % 256 = 0), c := decide (0x100 ≤ fixed) }

/-- Decimal SBC under `DECIMAL_POLICY = nmos` (R142): the flags are those of binary SBC. -/
def subDecimalNmos (a m : Byte) (carry : Bool) : AluResult :=
  let low : Int := lowDigit a - lowDigit m - (1 - carry.toNat)
  let al : Int := if low < 0 then (low - 6) % 16 - 16 else low
  let s : Int := 16 * highDigit a - 16 * highDigit m + al
  let fixed : Int := if s < 0 then s - 0x60 else s
  { subBinary a m carry with r := BitVec.ofInt 8 fixed }

/-- The sum ADC writes, binary or decimal as D and the policy say (R141, R142). -/
def State.sum (s : State) (m : Byte) : AluResult :=
  match s.p.d, s.config.decimalPolicy with
  | false, _ => addBinary s.a m s.p.c
  | true, .strict => addDecimalStrict s.draws s.a m s.p.c
  | true, .nmos => addDecimalNmos s.a m s.p.c

/-- The difference SBC writes, binary or decimal as D and the policy say (R142, R143). -/
def State.difference (s : State) (m : Byte) : AluResult :=
  match s.p.d, s.config.decimalPolicy with
  | false, _ => subBinary s.a m s.p.c
  | true, .strict => subDecimalStrict s.draws s.a m s.p.c
  | true, .nmos => subDecimalNmos s.a m s.p.c

/-- The flags after ADC or SBC: N, V, Z and C from the result (R141, R143). -/
def Status.setAlu (p : Status) (u : AluResult) : Status := { p with n := u.n, v := u.v, z := u.z, c := u.c }

/-- The flags after a compare: the difference without borrow, in N, Z and C; V and D take no part (R149 to R151). -/
def Status.compare (p : Status) (reg m : Byte) : Status :=
  let u := addBinary reg (~~~m) true
  { p with n := u.n, z := u.z, c := u.c }

/-- The flags after BIT: Z from `A & M`, N and V from bits 7 and 6 of the memory byte (R148). -/
def Status.bitTest (p : Status) (a m : Byte) : Status :=
  { p with n := m.getLsbD 7, v := m.getLsbD 6, z := isZero (a &&& m) }

/-- A byte and the flags that come with it. -/
structure Shifted where
  r : Byte
  p : Status
  deriving DecidableEq, Repr

/-- ASL: bit 7 leaves into C, 0 enters bit 0 (R161). -/
def shiftLeft (m : Byte) (p : Status) : Shifted :=
  let r := m <<< 1
  { r := r, p := { p.setNZ r with c := m.getLsbD 7 } }

/-- LSR: bit 0 leaves into C, 0 enters bit 7, N is forced to 0 (R162). -/
def shiftRight (m : Byte) (p : Status) : Shifted :=
  let r := m >>> 1
  { r := r, p := { p with n := false, z := isZero r, c := m.getLsbD 0 } }

/-- ROL: the old C enters bit 0, bit 7 leaves into C (R163). -/
def rotateLeft (m : Byte) (p : Status) : Shifted :=
  let r := m <<< 1 ||| (BitVec.ofBool p.c).setWidth 8
  { r := r, p := { p.setNZ r with c := m.getLsbD 7 } }

/-- ROR: the old C enters bit 7, bit 0 leaves into C (R164). -/
def rotateRight (m : Byte) (p : Status) : Shifted :=
  let r := m >>> 1 ||| (BitVec.ofBool p.c).setWidth 8 <<< 7
  { r := r, p := { p.setNZ r with c := m.getLsbD 0 } }

/-- INC: add one modulo 256; N and Z only (R165). -/
def increment (m : Byte) (p : Status) : Shifted := { r := m + 1, p := p.setNZ (m + 1) }

/-- DEC: subtract one modulo 256; N and Z only (R166). -/
def decrement (m : Byte) (p : Status) : Shifted := { r := m - 1, p := p.setNZ (m - 1) }

end Sys2Proof.Machine
end

