-- ==== Sys2Proof/Machine/Ops.lean ====
section
/-! DEFINITION. The named operations over memory, registers and the stack (spec/20_memory.md), taking an interrupt or a break
and returning from one (spec/60_exceptions.md R230, spec/45_stack_flag_system.md R213, R214). -/

namespace Sys2Proof.Machine

/-- The address the platform receives: all sixteen bits, or `addr mod 8192` on the UM6507 (R51). -/
def State.phys (s : State) (a : Addr) : Nat := a.toNat % s.config.variant.addressSpace

/-- The kind of the region a platform address lies in; an address no region names is ram (log entry 6). -/
def regionKind (regions : List Region) (a : Nat) : RegionKind :=
  match regions.find? fun r => decide (r.first ≤ a) && decide (a ≤ r.last) with
  | some r => r.kind
  | none => .ram

/-- What sits at an address: `MemoryMap` (R52, R53). -/
def State.kindAt (s : State) (a : Addr) : RegionKind := regionKind s.config.memoryMap (s.phys a)

/-- The byte ram or rom holds at an address. -/
def State.peek (s : State) (a : Addr) : Byte := s.mem.get (s.phys a)

/-- The last byte a list gives for a key. -/
def lastOf {κ : Type} [DecidableEq κ] (l : List (κ × Byte)) (k : κ) : Option Byte :=
  (l.reverse.find? fun c => decide (c.1 = k)).map Prod.snd

/-- The byte that a DMA agent puts in ram inside this step just before the read of this use, if it does (R69). -/
def State.dmaByte (s : State) (use : ByteUse) : Option Byte :=
  if s.config.dmaAgent then lastOf s.dmaReads use else none

/-- `MemRead(addr, 1)` (R52): the stored byte of ram or rom, for ram after what a DMA agent has just put there (R69, log entry
12); a draw for a device or an unmapped address. -/
def State.read (s : State) (use : ByteUse) (a : Addr) : Byte :=
  match s.kindAt a with
  | .ram => (s.dmaByte use).getD (s.peek a)
  | .rom => s.peek a
  | .device _ => Config.freeByte s.draws use
  | .unmapped => Config.freeByte s.draws use

/-- One byte written by a DMA agent, by the platform's address: it lands where there is ram (R69). -/
def State.dmaStore (s : State) (m : Memory) (c : Host.Cell) : Memory :=
  if c.1 < s.config.variant.addressSpace ∧ regionKind s.config.memoryMap c.1 = .ram then m.set c.1 c.2 else m

/-- Memory after what a DMA agent has written, in order (R69). -/
def State.afterDma (s : State) (cells : List Host.Cell) : Memory :=
  if s.config.dmaAgent then cells.foldl s.dmaStore s.mem else s.mem

/-- `MemWrite(addr, 1, v)` (R53): stored in ram; dropped by rom and unmapped addresses; taken by a device, which has no
state here (log entry 11). -/
def State.write (s : State) (a : Addr) (v : Byte) : State :=
  match s.kindAt a with
  | .ram => { s with mem := s.mem.set (s.phys a) v }
  | .rom => s
  | .device _ => s
  | .unmapped => s

/-- `Read16(addr)` for a vector: low byte first (R56). -/
def State.readVector (s : State) (vec : Addr) : Addr :=
  joinBytes (s.read .vectorLow vec) (s.read .vectorHigh (vec + 1))

/-- Does one of these addresses lie in a device whose accesses have side effects (R59). -/
def State.touchesDevice (s : State) (addrs : List Addr) : Bool :=
  addrs.any fun a => decide (s.kindAt a = .device true)

/-- The answer `t`, or the refusal R59 asks for. -/
def unlessDevice (touched : Bool) (t : State) : Result :=
  if touched then .refused .deviceSideEffects else .next t

def State.setA (s : State) (v : Byte) : State := { s with a := v }
def State.setX (s : State) (v : Byte) : State := { s with x := v }
def State.setY (s : State) (v : Byte) : State := { s with y := v }
def State.setSp (s : State) (v : Byte) : State := { s with sp := v }
def State.setPc (s : State) (v : Addr) : State := { s with pc := v }
def State.setP (s : State) (p : Status) : State := { s with p := p }

/-- `SetNZ(v)` (spec/10_state.md R30). -/
def State.setNZ (s : State) (v : Byte) : State := s.setP (s.p.setNZ v)

/-- `PC <- (PC + #) mod 65536` (spec/10_state.md R32). -/
def State.advance (s : State) (n : Nat) : State := s.setPc (s.pc + BitVec.ofNat 16 n)

/-- The byte of page one a stack pointer selects: `0x0100 + S` (R60). -/
def stackAddr (sp : Byte) : Addr := 0x0100#16 + zext16 sp

/-- `Push(v)`: store at the selected byte, then decrement S modulo 256 (R60, R62). -/
def State.push (s : State) (v : Byte) : State := (s.write (stackAddr s.sp) v).setSp (s.sp - 1)

/-- The byte a `Pull()` returns after `k` others: S is incremented first (R61). -/
def State.pulled (s : State) (use : ByteUse) (k : Nat) : Byte :=
  s.read use (stackAddr (s.sp + BitVec.ofNat 8 (k + 1)))

/-- S after `n` pulls (R61). -/
def State.drop (s : State) (n : Nat) : State := s.setSp (s.sp + BitVec.ofNat 8 n)

/-- Do `n` pushes reach a device with side effects (R59). -/
def State.pushTouches (s : State) (n : Nat) : Bool :=
  s.touchesDevice ((List.range n).map fun k => stackAddr (s.sp - BitVec.ofNat 8 k))

/-- Do `n` pulls reach a device with side effects (R59). -/
def State.pullTouches (s : State) (n : Nat) : Bool :=
  s.touchesDevice ((List.range n).map fun k => stackAddr (s.sp + BitVec.ofNat 8 (k + 1)))

/-- Push a two-byte address, PCH first (spec/60_exceptions.md R230, spec/44_branch_jump.md R189). -/
def State.pushAddr (s : State) (a : Addr) : State := (s.push (hiByte a)).push (loByte a)

/-- The vectors (spec/60_exceptions.md R231). -/
def nmiVector : Addr := 0xFFFA
def resetVector : Addr := 0xFFFC
def irqVector : Addr := 0xFFFE

/-- Set I, which masks IRQ (spec/60_exceptions.md R230). -/
def State.maskIrq (s : State) : State := s.setP { s.p with i := true }

/-- Taking a break or an interrupt: push the return address, push the image of P with bit 4 = `b`, set I, load PC from the
vector (spec/60_exceptions.md R230; spec/45_stack_flag_system.md R213). -/
def State.enter (s : State) (ret : Addr) (b : Bool) (vec : Addr) : State :=
  let t := ((s.pushAddr ret).push (s.p.image b)).maskIrq
  t.setPc (t.readVector vec)

/-- `enter`, unless its three pushes reach a device with side effects (R59). -/
def State.takeBreak (s : State) (ret : Addr) (b : Bool) (vec : Addr) : Result :=
  unlessDevice (s.pushTouches 3) (s.enter ret b vec)

/-- Returning: pull P, then PCL, then PCH; PC is the pulled word with nothing added (spec/45_stack_flag_system.md R214). -/
def State.returned (s : State) : State :=
  ((s.setP (Status.ofByte (s.pulled .pulledStatus 0))).setPc
    (joinBytes (s.pulled .pulledLow 1) (s.pulled .pulledHigh 2))).drop 3

/-- `returned`, unless its three pulls reach a device with side effects (R59). -/
def State.returnFromInterrupt (s : State) : Result := unlessDevice (s.pullTouches 3) s.returned

end Sys2Proof.Machine
end

