-- ==== Sys2Proof/Machine/Operands.lean ====
section
/-! DEFINITION. Addressing modes: effective addresses and operands (spec/40_addressing_modes.md). -/

namespace Sys2Proof

/-- Is the address the instruction's own operand, neither indexed nor indirect. -/
def MemMode.isDirect : MemMode → Bool
  | .zeroPage _ => true
  | .absolute _ => true
  | .zeroPageX _ => false
  | .zeroPageY _ => false
  | .absoluteX _ => false
  | .absoluteY _ => false
  | .indexedIndirectX _ => false
  | .indirectIndexedY _ => false

/-- Operand bytes after the opcode, plus one (spec/30_encoding.md R81). -/
def MemMode.length : MemMode → Nat
  | .zeroPage _ => 2
  | .zeroPageX _ => 2
  | .zeroPageY _ => 2
  | .absolute _ => 3
  | .absoluteX _ => 3
  | .absoluteY _ => 3
  | .indexedIndirectX _ => 2
  | .indirectIndexedY _ => 2

/-- `#` of a reading instruction (spec/30_encoding.md R81). -/
def Source.length : Source → Nat
  | .immediate _ => 2
  | .memory m => m.length

/-- `#` of a shift or rotate (spec/30_encoding.md R81). -/
def Target.length : Target → Nat
  | .accumulator => 1
  | .memory m => m.length

end Sys2Proof

namespace Sys2Proof.Machine

/-- The two page-zero bytes of a pointer at `p`: the second wraps within page zero (R110, R111). -/
def pointerAddrs (p : Byte) : List Addr := [zext16 p, zext16 (p + 1)]

/-- The address a page-zero pointer at `p` holds, low byte first (R110, R111). -/
def State.pointer (s : State) (p : Byte) : Addr :=
  joinBytes (s.read .pointerLow (zext16 p)) (s.read .pointerHigh (zext16 (p + 1)))

/-- The effective address of each mode (R104 to R111). All sums wrap at the mode's width. -/
def State.ea (s : State) : MemMode → Addr
  | .zeroPage zp => zext16 zp
  | .zeroPageX zp => zext16 (zp + s.x)
  | .zeroPageY zp => zext16 (zp + s.y)
  | .absolute addr => addr
  | .absoluteX addr => addr + zext16 s.x
  | .absoluteY addr => addr + zext16 s.y
  | .indexedIndirectX zp => s.pointer (zp + s.x)
  | .indirectIndexedY zp => s.pointer zp + zext16 s.y

/-- The data addresses an instruction of each mode reads or writes: pointer bytes, then the operand (R100). -/
def State.accessed (s : State) (m : MemMode) : List Addr :=
  match m with
  | .zeroPage _ => [s.ea m]
  | .zeroPageX _ => [s.ea m]
  | .zeroPageY _ => [s.ea m]
  | .absolute _ => [s.ea m]
  | .absoluteX _ => [s.ea m]
  | .absoluteY _ => [s.ea m]
  | .indexedIndirectX zp => pointerAddrs (zp + s.x) ++ [s.ea m]
  | .indirectIndexedY zp => pointerAddrs zp ++ [s.ea m]

/-- Does a load or store in this mode make an indexed or indirect access to a device with side effects
(spec/20_memory.md R59, D13). -/
def State.modeTouches (s : State) (m : MemMode) : Bool := !m.isDirect && s.touchesDevice (s.accessed m)

/-- The same for a read-modify-write instruction, whatever its mode (spec/20_memory.md R59, D13). -/
def State.modifyTouches (s : State) (m : MemMode) : Bool := s.touchesDevice (s.accessed m)

/-- `M` of a reading instruction: the immediate byte, or the byte at the effective address (R100, R103). -/
def State.sourceByte (s : State) : Source → Byte
  | .immediate imm => imm
  | .memory m => s.read .operand (s.ea m)

/-- Does reading this operand reach a device with side effects by an indexed or indirect access (spec/20_memory.md R59). -/
def State.sourceTouches (s : State) : Source → Bool
  | .immediate _ => false
  | .memory m => s.modeTouches m

/-- A reading instruction: fetch `M`, do `k` with it, advance PC by `#`. -/
def State.reading (s : State) (src : Source) (k : Byte → State) : Result :=
  unlessDevice (s.sourceTouches src) ((k (s.sourceByte src)).advance src.length)

/-- A storing instruction: `MemWrite(EA, 1, v)`, advance PC by `#` (R100). -/
def State.storing (s : State) (m : MemMode) (v : Byte) : Result :=
  unlessDevice (s.modeTouches m) ((s.write (s.ea m) v).advance m.length)

/-- A read-modify-write instruction on memory: one read and one write of the same address (R100, spec/43_shift_incdec.md
R160). -/
def State.modifying (s : State) (m : MemMode) (f : Byte → Status → Shifted) : Result :=
  let u := f (s.read .operand (s.ea m)) s.p
  unlessDevice (s.modifyTouches m) (((s.write (s.ea m) u.r).setP u.p).advance m.length)

/-- A shift or rotate: on A, or read-modify-write on memory (spec/43_shift_incdec.md R160). -/
def State.shifting (s : State) (t : Target) (f : Byte → Status → Shifted) : Result :=
  match t with
  | .accumulator =>
    let u := f s.a s.p
    .next (((s.setA u.r).setP u.p).advance 1)
  | .memory m => s.modifying m f

/-- The address of the instruction after a branch (R113). -/
def State.afterBranch (s : State) : Addr := s.pc + 2

/-- The target of a branch: a signed offset from the next instruction, modulo 65536 (R113). -/
def State.branchTarget (s : State) (rel : Byte) : Addr := s.afterBranch + sext16 rel

/-- Where JMP (indirect) reads the high byte of its target: the next byte, but where the pointer's low byte is 0xFF the
configuration decides whether the increment carries; under `either` a free bit does (R112, log entry 9). -/
def State.indirectHighAddr (s : State) (ptr : Addr) : Addr :=
  if loByte ptr = 0xFF then
    match s.config.jmpIndWrap with
    | .refuse => ptr + 1
    | .carry => ptr + 1
    | .noCarry => ptr - 0x00FF
    | .either => if Config.freeBit s.draws .jmpIndCarries then ptr + 1 else ptr - 0x00FF
  else ptr + 1

/-- The target of JMP (indirect): low byte at the pointer, high byte after it (R112). -/
def State.indirectTarget (s : State) (ptr : Addr) : Addr :=
  joinBytes (s.read .pointerLow ptr) (s.read .pointerHigh (s.indirectHighAddr ptr))

/-- Does the configuration refuse this pointer (R112). -/
def State.refusesPointer (s : State) (ptr : Addr) : Bool :=
  decide (loByte ptr = 0xFF) && decide (s.config.jmpIndWrap = .refuse)

/-- Do the three bytes of a JSR at PC lie where its two pushes write (spec/44_branch_jump.md R189). -/
def State.jsrOverlaps (s : State) : Bool :=
  [s.pc, s.pc + 1, s.pc + 2].any fun b =>
    decide (s.phys b = s.phys (stackAddr s.sp)) || decide (s.phys b = s.phys (stackAddr (s.sp - 1)))

end Sys2Proof.Machine
end

