-- ==== Sys2Proof/Machine/Arith.lean ====
section
/-! DEFINITION. Arithmetic, logic, bit-test and compare instructions (spec/42_arithmetic_logic.md). -/

namespace Sys2Proof.Machine

/-- ADC and SBC: A and N, V, Z, C from the result (R141 to R143). -/
def State.setAlu (s : State) (u : AluResult) : State := (s.setA u.r).setP (s.p.setAlu u)

/-- ADC (R141, R142). -/
def addWithCarry (src : Source) (s : State) : Result := s.reading src fun m => s.setAlu (s.sum m)

/-- SBC (R142, R143). -/
def subWithBorrow (src : Source) (s : State) : Result := s.reading src fun m => s.setAlu (s.difference m)

/-- AND (R145). -/
def andWith (src : Source) (s : State) : Result := s.reading src fun m => (s.setA (s.a &&& m)).setNZ (s.a &&& m)

/-- ORA (R146). -/
def orWith (src : Source) (s : State) : Result := s.reading src fun m => (s.setA (s.a ||| m)).setNZ (s.a ||| m)

/-- EOR (R147). -/
def xorWith (src : Source) (s : State) : Result := s.reading src fun m => (s.setA (s.a ^^^ m)).setNZ (s.a ^^^ m)

/-- BIT (R148). -/
def testBits (m : MemMode) (s : State) : Result := s.reading (.memory m) fun b => s.setP (s.p.bitTest s.a b)

/-- CMP, CPX and CPY, by the register they compare (R149 to R151). -/
def compareWith (reg : Byte) (src : Source) (s : State) : Result := s.reading src fun m => s.setP (s.p.compare reg m)

/-- ADC immediate, opcode 69: R141 with R103. -/
def execAdcImm (imm : Byte) (s : State) : Result :=
  addWithCarry (.immediate imm) s

/-- ADC absolute, opcode 6D: R141 with R107. -/
def execAdcAbs (addr : Addr) (s : State) : Result :=
  addWithCarry (.memory (.absolute addr)) s

/-- ADC zero page, opcode 65: R141 with R104. -/
def execAdcZp (zp : Byte) (s : State) : Result :=
  addWithCarry (.memory (.zeroPage zp)) s

/-- ADC (indirect,X), opcode 61: R141 with R110. -/
def execAdcIndX (zp : Byte) (s : State) : Result :=
  addWithCarry (.memory (.indexedIndirectX zp)) s

/-- ADC (indirect),Y, opcode 71: R141 with R111. -/
def execAdcIndY (zp : Byte) (s : State) : Result :=
  addWithCarry (.memory (.indirectIndexedY zp)) s

/-- ADC zero page,X, opcode 75: R141 with R105. -/
def execAdcZpX (zp : Byte) (s : State) : Result :=
  addWithCarry (.memory (.zeroPageX zp)) s

/-- ADC absolute,X, opcode 7D: R141 with R108. -/
def execAdcAbsX (addr : Addr) (s : State) : Result :=
  addWithCarry (.memory (.absoluteX addr)) s

/-- ADC absolute,Y, opcode 79: R141 with R109. -/
def execAdcAbsY (addr : Addr) (s : State) : Result :=
  addWithCarry (.memory (.absoluteY addr)) s

/-- SBC immediate, opcode E9: R143 with R103. -/
def execSbcImm (imm : Byte) (s : State) : Result :=
  subWithBorrow (.immediate imm) s

/-- SBC absolute, opcode ED: R143 with R107. -/
def execSbcAbs (addr : Addr) (s : State) : Result :=
  subWithBorrow (.memory (.absolute addr)) s

/-- SBC zero page, opcode E5: R143 with R104. -/
def execSbcZp (zp : Byte) (s : State) : Result :=
  subWithBorrow (.memory (.zeroPage zp)) s

/-- SBC (indirect,X), opcode E1: R143 with R110. -/
def execSbcIndX (zp : Byte) (s : State) : Result :=
  subWithBorrow (.memory (.indexedIndirectX zp)) s

/-- SBC (indirect),Y, opcode F1: R143 with R111. -/
def execSbcIndY (zp : Byte) (s : State) : Result :=
  subWithBorrow (.memory (.indirectIndexedY zp)) s

/-- SBC zero page,X, opcode F5: R143 with R105. -/
def execSbcZpX (zp : Byte) (s : State) : Result :=
  subWithBorrow (.memory (.zeroPageX zp)) s

/-- SBC absolute,X, opcode FD: R143 with R108. -/
def execSbcAbsX (addr : Addr) (s : State) : Result :=
  subWithBorrow (.memory (.absoluteX addr)) s

/-- SBC absolute,Y, opcode F9: R143 with R109. -/
def execSbcAbsY (addr : Addr) (s : State) : Result :=
  subWithBorrow (.memory (.absoluteY addr)) s

/-- AND immediate, opcode 29: R145 with R103. -/
def execAndImm (imm : Byte) (s : State) : Result :=
  andWith (.immediate imm) s

/-- AND absolute, opcode 2D: R145 with R107. -/
def execAndAbs (addr : Addr) (s : State) : Result :=
  andWith (.memory (.absolute addr)) s

/-- AND zero page, opcode 25: R145 with R104. -/
def execAndZp (zp : Byte) (s : State) : Result :=
  andWith (.memory (.zeroPage zp)) s

/-- AND (indirect,X), opcode 21: R145 with R110. -/
def execAndIndX (zp : Byte) (s : State) : Result :=
  andWith (.memory (.indexedIndirectX zp)) s

/-- AND (indirect),Y, opcode 31: R145 with R111. -/
def execAndIndY (zp : Byte) (s : State) : Result :=
  andWith (.memory (.indirectIndexedY zp)) s

/-- AND zero page,X, opcode 35: R145 with R105. -/
def execAndZpX (zp : Byte) (s : State) : Result :=
  andWith (.memory (.zeroPageX zp)) s

/-- AND absolute,X, opcode 3D: R145 with R108. -/
def execAndAbsX (addr : Addr) (s : State) : Result :=
  andWith (.memory (.absoluteX addr)) s

/-- AND absolute,Y, opcode 39: R145 with R109. -/
def execAndAbsY (addr : Addr) (s : State) : Result :=
  andWith (.memory (.absoluteY addr)) s

/-- ORA immediate, opcode 09: R146 with R103. -/
def execOraImm (imm : Byte) (s : State) : Result :=
  orWith (.immediate imm) s

/-- ORA absolute, opcode 0D: R146 with R107. -/
def execOraAbs (addr : Addr) (s : State) : Result :=
  orWith (.memory (.absolute addr)) s

/-- ORA zero page, opcode 05: R146 with R104. -/
def execOraZp (zp : Byte) (s : State) : Result :=
  orWith (.memory (.zeroPage zp)) s

/-- ORA (indirect,X), opcode 01: R146 with R110. -/
def execOraIndX (zp : Byte) (s : State) : Result :=
  orWith (.memory (.indexedIndirectX zp)) s

/-- ORA (indirect),Y, opcode 11: R146 with R111. -/
def execOraIndY (zp : Byte) (s : State) : Result :=
  orWith (.memory (.indirectIndexedY zp)) s

/-- ORA zero page,X, opcode 15: R146 with R105. -/
def execOraZpX (zp : Byte) (s : State) : Result :=
  orWith (.memory (.zeroPageX zp)) s

/-- ORA absolute,X, opcode 1D: R146 with R108. -/
def execOraAbsX (addr : Addr) (s : State) : Result :=
  orWith (.memory (.absoluteX addr)) s

/-- ORA absolute,Y, opcode 19: R146 with R109. -/
def execOraAbsY (addr : Addr) (s : State) : Result :=
  orWith (.memory (.absoluteY addr)) s

/-- EOR immediate, opcode 49: R147 with R103. -/
def execEorImm (imm : Byte) (s : State) : Result :=
  xorWith (.immediate imm) s

/-- EOR absolute, opcode 4D: R147 with R107. -/
def execEorAbs (addr : Addr) (s : State) : Result :=
  xorWith (.memory (.absolute addr)) s

/-- EOR zero page, opcode 45: R147 with R104. -/
def execEorZp (zp : Byte) (s : State) : Result :=
  xorWith (.memory (.zeroPage zp)) s

/-- EOR (indirect,X), opcode 41: R147 with R110. -/
def execEorIndX (zp : Byte) (s : State) : Result :=
  xorWith (.memory (.indexedIndirectX zp)) s

/-- EOR (indirect),Y, opcode 51: R147 with R111. -/
def execEorIndY (zp : Byte) (s : State) : Result :=
  xorWith (.memory (.indirectIndexedY zp)) s

/-- EOR zero page,X, opcode 55: R147 with R105. -/
def execEorZpX (zp : Byte) (s : State) : Result :=
  xorWith (.memory (.zeroPageX zp)) s

/-- EOR absolute,X, opcode 5D: R147 with R108. -/
def execEorAbsX (addr : Addr) (s : State) : Result :=
  xorWith (.memory (.absoluteX addr)) s

/-- EOR absolute,Y, opcode 59: R147 with R109. -/
def execEorAbsY (addr : Addr) (s : State) : Result :=
  xorWith (.memory (.absoluteY addr)) s

/-- BIT absolute, opcode 2C: R148 with R107. -/
def execBitAbs (addr : Addr) (s : State) : Result :=
  testBits (.absolute addr) s

/-- BIT zero page, opcode 24: R148 with R104. -/
def execBitZp (zp : Byte) (s : State) : Result :=
  testBits (.zeroPage zp) s

/-- CMP immediate, opcode C9: R149 with R103. -/
def execCmpImm (imm : Byte) (s : State) : Result :=
  compareWith s.a (.immediate imm) s

/-- CMP absolute, opcode CD: R149 with R107. -/
def execCmpAbs (addr : Addr) (s : State) : Result :=
  compareWith s.a (.memory (.absolute addr)) s

/-- CMP zero page, opcode C5: R149 with R104. -/
def execCmpZp (zp : Byte) (s : State) : Result :=
  compareWith s.a (.memory (.zeroPage zp)) s

/-- CMP (indirect,X), opcode C1: R149 with R110. -/
def execCmpIndX (zp : Byte) (s : State) : Result :=
  compareWith s.a (.memory (.indexedIndirectX zp)) s

/-- CMP (indirect),Y, opcode D1: R149 with R111. -/
def execCmpIndY (zp : Byte) (s : State) : Result :=
  compareWith s.a (.memory (.indirectIndexedY zp)) s

/-- CMP zero page,X, opcode D5: R149 with R105. -/
def execCmpZpX (zp : Byte) (s : State) : Result :=
  compareWith s.a (.memory (.zeroPageX zp)) s

/-- CMP absolute,X, opcode DD: R149 with R108. -/
def execCmpAbsX (addr : Addr) (s : State) : Result :=
  compareWith s.a (.memory (.absoluteX addr)) s

/-- CMP absolute,Y, opcode D9: R149 with R109. -/
def execCmpAbsY (addr : Addr) (s : State) : Result :=
  compareWith s.a (.memory (.absoluteY addr)) s

/-- CPX immediate, opcode E0: R150 with R103. -/
def execCpxImm (imm : Byte) (s : State) : Result :=
  compareWith s.x (.immediate imm) s

/-- CPX absolute, opcode EC: R150 with R107. -/
def execCpxAbs (addr : Addr) (s : State) : Result :=
  compareWith s.x (.memory (.absolute addr)) s

/-- CPX zero page, opcode E4: R150 with R104. -/
def execCpxZp (zp : Byte) (s : State) : Result :=
  compareWith s.x (.memory (.zeroPage zp)) s

/-- CPY immediate, opcode C0: R151 with R103. -/
def execCpyImm (imm : Byte) (s : State) : Result :=
  compareWith s.y (.immediate imm) s

/-- CPY absolute, opcode CC: R151 with R107. -/
def execCpyAbs (addr : Addr) (s : State) : Result :=
  compareWith s.y (.memory (.absolute addr)) s

/-- CPY zero page, opcode C4: R151 with R104. -/
def execCpyZp (zp : Byte) (s : State) : Result :=
  compareWith s.y (.memory (.zeroPage zp)) s

end Sys2Proof.Machine
end

