-- ==== Sys2Proof/Machine/Branch.lean ====
section
/-! DEFINITION. Branch, jump and subroutine instructions (spec/44_branch_jump.md). -/

namespace Sys2Proof.Machine

/-- The eight branches: to the target where the condition holds, else to the next instruction (R180). -/
def branchIf (cond : Bool) (rel : Byte) (s : State) : Result :=
  .next (s.setPc (if cond then s.branchTarget rel else s.afterBranch))

/-- JMP (indirect) (R190, R112): refused where the configuration refuses the pointer, and where one of its two pointer
reads reaches a device with side effects (spec/20_memory.md R59). -/
def jumpIndirect (ptr : Addr) (s : State) : Result :=
  if s.refusesPointer ptr then .refused .jmpIndirectWrap
  else unlessDevice (s.touchesDevice [ptr, s.indirectHighAddr ptr]) (s.setPc (s.indirectTarget ptr))

/-- JSR: push the address of its own third byte, PCH first, and jump (R189). -/
def jumpSubroutine (addr : Addr) (s : State) : Result :=
  if s.jsrOverlaps then .refused .jsrOverStack
  else unlessDevice (s.pushTouches 2) ((s.pushAddr (s.pc + 2)).setPc addr)

/-- RTS: pull PCL, then PCH, and add one (R191). -/
def returnSubroutine (s : State) : Result :=
  unlessDevice (s.pullTouches 2)
    ((s.setPc (joinBytes (s.pulled .pulledLow 0) (s.pulled .pulledHigh 1) + 1)).drop 2)

/-- BCC relative, opcode 90: R181 with R113. -/
def execBcc (rel : Byte) (s : State) : Result :=
  branchIf (!s.p.c) rel s

/-- BCS relative, opcode B0: R182 with R113. -/
def execBcs (rel : Byte) (s : State) : Result :=
  branchIf s.p.c rel s

/-- BEQ relative, opcode F0: R183 with R113. -/
def execBeq (rel : Byte) (s : State) : Result :=
  branchIf s.p.z rel s

/-- BMI relative, opcode 30: R184 with R113. -/
def execBmi (rel : Byte) (s : State) : Result :=
  branchIf s.p.n rel s

/-- BNE relative, opcode D0: R185 with R113. -/
def execBne (rel : Byte) (s : State) : Result :=
  branchIf (!s.p.z) rel s

/-- BPL relative, opcode 10: R186 with R113. -/
def execBpl (rel : Byte) (s : State) : Result :=
  branchIf (!s.p.n) rel s

/-- BVC relative, opcode 50: R187 with R113. -/
def execBvc (rel : Byte) (s : State) : Result :=
  branchIf (!s.p.v) rel s

/-- BVS relative, opcode 70: R188 with R113. -/
def execBvs (rel : Byte) (s : State) : Result :=
  branchIf s.p.v rel s

/-- JMP absolute, opcode 4C: R190 with R107. -/
def execJmpAbs (addr : Addr) (s : State) : Result :=
  .next (s.setPc addr)

/-- JMP absolute indirect, opcode 6C: R190 with R112. -/
def execJmpInd (ptr : Addr) (s : State) : Result :=
  jumpIndirect ptr s

/-- JSR absolute, opcode 20: R189 with R107. -/
def execJsr (addr : Addr) (s : State) : Result :=
  jumpSubroutine addr s

/-- RTS implied, opcode 60: R191. -/
def execRts (s : State) : Result :=
  returnSubroutine s

end Sys2Proof.Machine
end

