-- ==== Sys2Proof/Machine/Load.lean ====
section
/-! DEFINITION. Load, store and register-transfer instructions (spec/41_load_store_transfer.md). -/

namespace Sys2Proof.Machine

/-- LDA: `A <- M; SetNZ(M)` (R120). -/
def loadA (src : Source) (s : State) : Result := s.reading src fun m => (s.setA m).setNZ m

/-- LDX: `X <- M; SetNZ(M)` (R121). -/
def loadX (src : Source) (s : State) : Result := s.reading src fun m => (s.setX m).setNZ m

/-- LDY: `Y <- M; SetNZ(M)` (R122). -/
def loadY (src : Source) (s : State) : Result := s.reading src fun m => (s.setY m).setNZ m

/-- LDA immediate, opcode A9: R120 with R103. -/
def execLdaImm (imm : Byte) (s : State) : Result :=
  loadA (.immediate imm) s

/-- LDA absolute, opcode AD: R120 with R107. -/
def execLdaAbs (addr : Addr) (s : State) : Result :=
  loadA (.memory (.absolute addr)) s

/-- LDA zero page, opcode A5: R120 with R104. -/
def execLdaZp (zp : Byte) (s : State) : Result :=
  loadA (.memory (.zeroPage zp)) s

/-- LDA (indirect,X), opcode A1: R120 with R110. -/
def execLdaIndX (zp : Byte) (s : State) : Result :=
  loadA (.memory (.indexedIndirectX zp)) s

/-- LDA (indirect),Y, opcode B1: R120 with R111. -/
def execLdaIndY (zp : Byte) (s : State) : Result :=
  loadA (.memory (.indirectIndexedY zp)) s

/-- LDA zero page,X, opcode B5: R120 with R105. -/
def execLdaZpX (zp : Byte) (s : State) : Result :=
  loadA (.memory (.zeroPageX zp)) s

/-- LDA absolute,X, opcode BD: R120 with R108. -/
def execLdaAbsX (addr : Addr) (s : State) : Result :=
  loadA (.memory (.absoluteX addr)) s

/-- LDA absolute,Y, opcode B9: R120 with R109. -/
def execLdaAbsY (addr : Addr) (s : State) : Result :=
  loadA (.memory (.absoluteY addr)) s

/-- LDX immediate, opcode A2: R121 with R103. -/
def execLdxImm (imm : Byte) (s : State) : Result :=
  loadX (.immediate imm) s

/-- LDX absolute, opcode AE: R121 with R107. -/
def execLdxAbs (addr : Addr) (s : State) : Result :=
  loadX (.memory (.absolute addr)) s

/-- LDX zero page, opcode A6: R121 with R104. -/
def execLdxZp (zp : Byte) (s : State) : Result :=
  loadX (.memory (.zeroPage zp)) s

/-- LDX absolute,Y, opcode BE: R121 with R109. -/
def execLdxAbsY (addr : Addr) (s : State) : Result :=
  loadX (.memory (.absoluteY addr)) s

/-- LDX zero page,Y, opcode B6: R121 with R106. -/
def execLdxZpY (zp : Byte) (s : State) : Result :=
  loadX (.memory (.zeroPageY zp)) s

/-- LDY immediate, opcode A0: R122 with R103. -/
def execLdyImm (imm : Byte) (s : State) : Result :=
  loadY (.immediate imm) s

/-- LDY absolute, opcode AC: R122 with R107. -/
def execLdyAbs (addr : Addr) (s : State) : Result :=
  loadY (.memory (.absolute addr)) s

/-- LDY zero page, opcode A4: R122 with R104. -/
def execLdyZp (zp : Byte) (s : State) : Result :=
  loadY (.memory (.zeroPage zp)) s

/-- LDY zero page,X, opcode B4: R122 with R105. -/
def execLdyZpX (zp : Byte) (s : State) : Result :=
  loadY (.memory (.zeroPageX zp)) s

/-- LDY absolute,X, opcode BC: R122 with R108. -/
def execLdyAbsX (addr : Addr) (s : State) : Result :=
  loadY (.memory (.absoluteX addr)) s

/-- STA absolute, opcode 8D: R123 with R107. -/
def execStaAbs (addr : Addr) (s : State) : Result :=
  s.storing (.absolute addr) s.a

/-- STA zero page, opcode 85: R123 with R104. -/
def execStaZp (zp : Byte) (s : State) : Result :=
  s.storing (.zeroPage zp) s.a

/-- STA (indirect,X), opcode 81: R123 with R110. -/
def execStaIndX (zp : Byte) (s : State) : Result :=
  s.storing (.indexedIndirectX zp) s.a

/-- STA (indirect),Y, opcode 91: R123 with R111. -/
def execStaIndY (zp : Byte) (s : State) : Result :=
  s.storing (.indirectIndexedY zp) s.a

/-- STA zero page,X, opcode 95: R123 with R105. -/
def execStaZpX (zp : Byte) (s : State) : Result :=
  s.storing (.zeroPageX zp) s.a

/-- STA absolute,X, opcode 9D: R123 with R108. -/
def execStaAbsX (addr : Addr) (s : State) : Result :=
  s.storing (.absoluteX addr) s.a

/-- STA absolute,Y, opcode 99: R123 with R109. -/
def execStaAbsY (addr : Addr) (s : State) : Result :=
  s.storing (.absoluteY addr) s.a

/-- STX absolute, opcode 8E: R124 with R107. -/
def execStxAbs (addr : Addr) (s : State) : Result :=
  s.storing (.absolute addr) s.x

/-- STX zero page, opcode 86: R124 with R104. -/
def execStxZp (zp : Byte) (s : State) : Result :=
  s.storing (.zeroPage zp) s.x

/-- STX zero page,Y, opcode 96: R124 with R106. -/
def execStxZpY (zp : Byte) (s : State) : Result :=
  s.storing (.zeroPageY zp) s.x

/-- STY absolute, opcode 8C: R125 with R107. -/
def execStyAbs (addr : Addr) (s : State) : Result :=
  s.storing (.absolute addr) s.y

/-- STY zero page, opcode 84: R125 with R104. -/
def execStyZp (zp : Byte) (s : State) : Result :=
  s.storing (.zeroPage zp) s.y

/-- STY zero page,X, opcode 94: R125 with R105. -/
def execStyZpX (zp : Byte) (s : State) : Result :=
  s.storing (.zeroPageX zp) s.y

/-- TAX implied, opcode AA: R126. -/
def execTax (s : State) : Result :=
  .next (((s.setX s.a).setNZ s.a).advance 1)

/-- TAY implied, opcode A8: R127. -/
def execTay (s : State) : Result :=
  .next (((s.setY s.a).setNZ s.a).advance 1)

/-- TSX implied, opcode BA: R128. -/
def execTsx (s : State) : Result :=
  .next (((s.setX s.sp).setNZ s.sp).advance 1)

/-- TXA implied, opcode 8A: R129. -/
def execTxa (s : State) : Result :=
  .next (((s.setA s.x).setNZ s.x).advance 1)

/-- TXS implied, opcode 9A: R130. -/
def execTxs (s : State) : Result :=
  .next ((s.setSp s.x).advance 1)

/-- TYA implied, opcode 98: R131. -/
def execTya (s : State) : Result :=
  .next (((s.setA s.y).setNZ s.y).advance 1)

end Sys2Proof.Machine
end

