-- ==== Sys2Proof/Machine/Shift.lean ====
section
/-! DEFINITION. Shift, rotate, increment and decrement instructions (spec/43_shift_incdec.md). -/

namespace Sys2Proof.Machine

/-- ASL absolute, opcode 0E: R161 with R107. -/
def execAslAbs (addr : Addr) (s : State) : Result :=
  s.shifting (.memory (.absolute addr)) shiftLeft

/-- ASL zero page, opcode 06: R161 with R104. -/
def execAslZp (zp : Byte) (s : State) : Result :=
  s.shifting (.memory (.zeroPage zp)) shiftLeft

/-- ASL accumulator, opcode 0A: R161 with R102. -/
def execAslAcc (s : State) : Result :=
  s.shifting .accumulator shiftLeft

/-- ASL zero page,X, opcode 16: R161 with R105. -/
def execAslZpX (zp : Byte) (s : State) : Result :=
  s.shifting (.memory (.zeroPageX zp)) shiftLeft

/-- ASL absolute,X, opcode 1E: R161 with R108. -/
def execAslAbsX (addr : Addr) (s : State) : Result :=
  s.shifting (.memory (.absoluteX addr)) shiftLeft

/-- LSR absolute, opcode 4E: R162 with R107. -/
def execLsrAbs (addr : Addr) (s : State) : Result :=
  s.shifting (.memory (.absolute addr)) shiftRight

/-- LSR zero page, opcode 46: R162 with R104. -/
def execLsrZp (zp : Byte) (s : State) : Result :=
  s.shifting (.memory (.zeroPage zp)) shiftRight

/-- LSR accumulator, opcode 4A: R162 with R102. -/
def execLsrAcc (s : State) : Result :=
  s.shifting .accumulator shiftRight

/-- LSR zero page,X, opcode 56: R162 with R105. -/
def execLsrZpX (zp : Byte) (s : State) : Result :=
  s.shifting (.memory (.zeroPageX zp)) shiftRight

/-- LSR absolute,X, opcode 5E: R162 with R108. -/
def execLsrAbsX (addr : Addr) (s : State) : Result :=
  s.shifting (.memory (.absoluteX addr)) shiftRight

/-- ROL absolute, opcode 2E: R163 with R107. -/
def execRolAbs (addr : Addr) (s : State) : Result :=
  s.shifting (.memory (.absolute addr)) rotateLeft

/-- ROL zero page, opcode 26: R163 with R104. -/
def execRolZp (zp : Byte) (s : State) : Result :=
  s.shifting (.memory (.zeroPage zp)) rotateLeft

/-- ROL accumulator, opcode 2A: R163 with R102. -/
def execRolAcc (s : State) : Result :=
  s.shifting .accumulator rotateLeft

/-- ROL zero page,X, opcode 36: R163 with R105. -/
def execRolZpX (zp : Byte) (s : State) : Result :=
  s.shifting (.memory (.zeroPageX zp)) rotateLeft

/-- ROL absolute,X, opcode 3E: R163 with R108. -/
def execRolAbsX (addr : Addr) (s : State) : Result :=
  s.shifting (.memory (.absoluteX addr)) rotateLeft

/-- ROR absolute, opcode 6E: R164 with R107. -/
def execRorAbs (addr : Addr) (s : State) : Result :=
  s.shifting (.memory (.absolute addr)) rotateRight

/-- ROR zero page, opcode 66: R164 with R104. -/
def execRorZp (zp : Byte) (s : State) : Result :=
  s.shifting (.memory (.zeroPage zp)) rotateRight

/-- ROR accumulator, opcode 6A: R164 with R102. -/
def execRorAcc (s : State) : Result :=
  s.shifting .accumulator rotateRight

/-- ROR zero page,X, opcode 76: R164 with R105. -/
def execRorZpX (zp : Byte) (s : State) : Result :=
  s.shifting (.memory (.zeroPageX zp)) rotateRight

/-- ROR absolute,X, opcode 7E: R164 with R108. -/
def execRorAbsX (addr : Addr) (s : State) : Result :=
  s.shifting (.memory (.absoluteX addr)) rotateRight

/-- INC absolute, opcode EE: R165 with R107. -/
def execIncAbs (addr : Addr) (s : State) : Result :=
  s.modifying (.absolute addr) increment

/-- INC zero page, opcode E6: R165 with R104. -/
def execIncZp (zp : Byte) (s : State) : Result :=
  s.modifying (.zeroPage zp) increment

/-- INC zero page,X, opcode F6: R165 with R105. -/
def execIncZpX (zp : Byte) (s : State) : Result :=
  s.modifying (.zeroPageX zp) increment

/-- INC absolute,X, opcode FE: R165 with R108. -/
def execIncAbsX (addr : Addr) (s : State) : Result :=
  s.modifying (.absoluteX addr) increment

/-- DEC absolute, opcode CE: R166 with R107. -/
def execDecAbs (addr : Addr) (s : State) : Result :=
  s.modifying (.absolute addr) decrement

/-- DEC zero page, opcode C6: R166 with R104. -/
def execDecZp (zp : Byte) (s : State) : Result :=
  s.modifying (.zeroPage zp) decrement

/-- DEC zero page,X, opcode D6: R166 with R105. -/
def execDecZpX (zp : Byte) (s : State) : Result :=
  s.modifying (.zeroPageX zp) decrement

/-- DEC absolute,X, opcode DE: R166 with R108. -/
def execDecAbsX (addr : Addr) (s : State) : Result :=
  s.modifying (.absoluteX addr) decrement

/-- INX implied, opcode E8: R167. -/
def execInx (s : State) : Result :=
  .next (((s.setX (s.x + 1)).setNZ (s.x + 1)).advance 1)

/-- INY implied, opcode C8: R168. -/
def execIny (s : State) : Result :=
  .next (((s.setY (s.y + 1)).setNZ (s.y + 1)).advance 1)

/-- DEX implied, opcode CA: R169. -/
def execDex (s : State) : Result :=
  .next (((s.setX (s.x - 1)).setNZ (s.x - 1)).advance 1)

/-- DEY implied, opcode 88: R170. -/
def execDey (s : State) : Result :=
  .next (((s.setY (s.y - 1)).setNZ (s.y - 1)).advance 1)

end Sys2Proof.Machine
end

