-- ==== Sys2Proof/Machine/System.lean ====
section
/-! DEFINITION. Stack, flag and system instructions (spec/45_stack_flag_system.md). -/

namespace Sys2Proof.Machine

/-- PHA and PHP: push one byte (R200, R201). -/
def pushByte (v : Byte) (s : State) : Result := unlessDevice (s.pushTouches 1) ((s.push v).advance 1)

/-- PLA: pull one byte into A and set N and Z (R202). -/
def pullA (s : State) : Result :=
  let v := s.pulled .pulledA 0
  unlessDevice (s.pullTouches 1) ((((s.setA v).setNZ v).drop 1).advance 1)

/-- PLP: pull one byte into the six flags (R203). -/
def pullStatus (s : State) : Result :=
  unlessDevice (s.pullTouches 1) (((s.setP (Status.ofByte (s.pulled .pulledStatus 0))).drop 1).advance 1)

/-- A one-byte instruction that only writes flags (R204 to R210). -/
def setFlags (p : Status) (s : State) : Result := .next ((s.setP p).advance 1)

/-- PHA implied, opcode 48: R200. -/
def execPha (s : State) : Result :=
  pushByte s.a s

/-- PHP implied, opcode 08: R201. -/
def execPhp (s : State) : Result :=
  pushByte (s.p.image true) s

/-- PLA implied, opcode 68: R202. -/
def execPla (s : State) : Result :=
  pullA s

/-- PLP implied, opcode 28: R203. -/
def execPlp (s : State) : Result :=
  pullStatus s

/-- CLC implied, opcode 18: R204. -/
def execClc (s : State) : Result :=
  setFlags { s.p with c := false } s

/-- CLD implied, opcode D8: R205. -/
def execCld (s : State) : Result :=
  setFlags { s.p with d := false } s

/-- CLI implied, opcode 58: R206. -/
def execCli (s : State) : Result :=
  setFlags { s.p with i := false } s

/-- CLV implied, opcode B8: R207. -/
def execClv (s : State) : Result :=
  setFlags { s.p with v := false } s

/-- SEC implied, opcode 38: R208. -/
def execSec (s : State) : Result :=
  setFlags { s.p with c := true } s

/-- SED implied, opcode F8: R209. -/
def execSed (s : State) : Result :=
  setFlags { s.p with d := true } s

/-- SEI implied, opcode 78: R210. -/
def execSei (s : State) : Result :=
  setFlags { s.p with i := true } s

/-- NOP implied, opcode EA: R211. -/
def execNop (s : State) : Result :=
  .next (s.advance 1)

/-- BRK implied, opcode 00: R213. -/
def execBrk (s : State) : Result :=
  s.takeBreak (s.pc + 2) true irqVector

/-- RTI implied, opcode 40: R214. -/
def execRti (s : State) : Result :=
  s.returnFromInterrupt

end Sys2Proof.Machine
end

