-- ==== Sys2Proof/Syntax.lean ====
section
/-! DEFINITION. Instructions as data (spec/30_encoding.md R84): one constructor for each of the 151 assigned opcode
bytes. A constructor's name is the mnemonic and the addressing mode; its argument is the operand the bytes after the
opcode give (R83). `Imm` immediate, `Zp` zero page, `Abs` absolute, `X` and `Y` indexed, `IndX` (indirect,X),
`IndY` (indirect),Y, `Ind` absolute indirect, `Acc` accumulator. -/

namespace Sys2Proof

/-- The 151 instructions, in the order of R84's table. -/
inductive Instr where
  -- ADC: R141
  | adcImm (imm : Byte)
  | adcAbs (addr : Addr)
  | adcZp (zp : Byte)
  | adcIndX (zp : Byte)
  | adcIndY (zp : Byte)
  | adcZpX (zp : Byte)
  | adcAbsX (addr : Addr)
  | adcAbsY (addr : Addr)
  -- AND: R145
  | andImm (imm : Byte)
  | andAbs (addr : Addr)
  | andZp (zp : Byte)
  | andIndX (zp : Byte)
  | andIndY (zp : Byte)
  | andZpX (zp : Byte)
  | andAbsX (addr : Addr)
  | andAbsY (addr : Addr)
  -- ASL: R161
  | aslAbs (addr : Addr)
  | aslZp (zp : Byte)
  | aslAcc
  | aslZpX (zp : Byte)
  | aslAbsX (addr : Addr)
  -- BCC: R181
  | bcc (rel : Byte)
  -- BCS: R182
  | bcs (rel : Byte)
  -- BEQ: R183
  | beq (rel : Byte)
  -- BIT: R148
  | bitAbs (addr : Addr)
  | bitZp (zp : Byte)
  -- BMI: R184
  | bmi (rel : Byte)
  -- BNE: R185
  | bne (rel : Byte)
  -- BPL: R186
  | bpl (rel : Byte)
  -- BRK: R213
  | brk
  -- BVC: R187
  | bvc (rel : Byte)
  -- BVS: R188
  | bvs (rel : Byte)
  -- CLC: R204
  | clc
  -- CLD: R205
  | cld
  -- CLI: R206
  | cli
  -- CLV: R207
  | clv
  -- CMP: R149
  | cmpImm (imm : Byte)
  | cmpAbs (addr : Addr)
  | cmpZp (zp : Byte)
  | cmpIndX (zp : Byte)
  | cmpIndY (zp : Byte)
  | cmpZpX (zp : Byte)
  | cmpAbsX (addr : Addr)
  | cmpAbsY (addr : Addr)
  -- CPX: R150
  | cpxImm (imm : Byte)
  | cpxAbs (addr : Addr)
  | cpxZp (zp : Byte)
  -- CPY: R151
  | cpyImm (imm : Byte)
  | cpyAbs (addr : Addr)
  | cpyZp (zp : Byte)
  -- DEC: R166
  | decAbs (addr : Addr)
  | decZp (zp : Byte)
  | decZpX (zp : Byte)
  | decAbsX (addr : Addr)
  -- DEX: R169
  | dex
  -- DEY: R170
  | dey
  -- EOR: R147
  | eorImm (imm : Byte)
  | eorAbs (addr : Addr)
  | eorZp (zp : Byte)
  | eorIndX (zp : Byte)
  | eorIndY (zp : Byte)
  | eorZpX (zp : Byte)
  | eorAbsX (addr : Addr)
  | eorAbsY (addr : Addr)
  -- INC: R165
  | incAbs (addr : Addr)
  | incZp (zp : Byte)
  | incZpX (zp : Byte)
  | incAbsX (addr : Addr)
  -- INX: R167
  | inx
  -- INY: R168
  | iny
  -- JMP: R190
  | jmpAbs (addr : Addr)
  | jmpInd (ptr : Addr)
  -- JSR: R189
  | jsr (addr : Addr)
  -- LDA: R120
  | ldaImm (imm : Byte)
  | ldaAbs (addr : Addr)
  | ldaZp (zp : Byte)
  | ldaIndX (zp : Byte)
  | ldaIndY (zp : Byte)
  | ldaZpX (zp : Byte)
  | ldaAbsX (addr : Addr)
  | ldaAbsY (addr : Addr)
  -- LDX: R121
  | ldxImm (imm : Byte)
  | ldxAbs (addr : Addr)
  | ldxZp (zp : Byte)
  | ldxAbsY (addr : Addr)
  | ldxZpY (zp : Byte)
  -- LDY: R122
  | ldyImm (imm : Byte)
  | ldyAbs (addr : Addr)
  | ldyZp (zp : Byte)
  | ldyZpX (zp : Byte)
  | ldyAbsX (addr : Addr)
  -- LSR: R162
  | lsrAbs (addr : Addr)
  | lsrZp (zp : Byte)
  | lsrAcc
  | lsrZpX (zp : Byte)
  | lsrAbsX (addr : Addr)
  -- NOP: R211
  | nop
  -- ORA: R146
  | oraImm (imm : Byte)
  | oraAbs (addr : Addr)
  | oraZp (zp : Byte)
  | oraIndX (zp : Byte)
  | oraIndY (zp : Byte)
  | oraZpX (zp : Byte)
  | oraAbsX (addr : Addr)
  | oraAbsY (addr : Addr)
  -- PHA: R200
  | pha
  -- PHP: R201
  | php
  -- PLA: R202
  | pla
  -- PLP: R203
  | plp
  -- ROL: R163
  | rolAbs (addr : Addr)
  | rolZp (zp : Byte)
  | rolAcc
  | rolZpX (zp : Byte)
  | rolAbsX (addr : Addr)
  -- ROR: R164
  | rorAbs (addr : Addr)
  | rorZp (zp : Byte)
  | rorAcc
  | rorZpX (zp : Byte)
  | rorAbsX (addr : Addr)
  -- RTI: R214
  | rti
  -- RTS: R191
  | rts
  -- SBC: R143
  | sbcImm (imm : Byte)
  | sbcAbs (addr : Addr)
  | sbcZp (zp : Byte)
  | sbcIndX (zp : Byte)
  | sbcIndY (zp : Byte)
  | sbcZpX (zp : Byte)
  | sbcAbsX (addr : Addr)
  | sbcAbsY (addr : Addr)
  -- SEC: R208
  | sec
  -- SED: R209
  | sed
  -- SEI: R210
  | sei
  -- STA: R123
  | staAbs (addr : Addr)
  | staZp (zp : Byte)
  | staIndX (zp : Byte)
  | staIndY (zp : Byte)
  | staZpX (zp : Byte)
  | staAbsX (addr : Addr)
  | staAbsY (addr : Addr)
  -- STX: R124
  | stxAbs (addr : Addr)
  | stxZp (zp : Byte)
  | stxZpY (zp : Byte)
  -- STY: R125
  | styAbs (addr : Addr)
  | styZp (zp : Byte)
  | styZpX (zp : Byte)
  -- TAX: R126
  | tax
  -- TAY: R127
  | tay
  -- TSX: R128
  | tsx
  -- TXA: R129
  | txa
  -- TXS: R130
  | txs
  -- TYA: R131
  | tya
  deriving DecidableEq, Repr

end Sys2Proof
end

