-- ==== Sys2Proof/WellFormed.lean ====
section
/-! DEFINITION. Which instructions and configurations mean something. -/

namespace Sys2Proof

/-- Every instruction is well formed: "Operand bytes are unrestricted: every value 0x00-0xFF is legal in every operand
byte of every assigned opcode" (spec/30_encoding.md R88), and an operand's width is its type's. There is no check, so
there is no ill-formed instruction. -/
def Instr.wellFormed (_ : Instr) : Bool := true

/-- A region names at least one address and none beyond the platform's (spec/20_memory.md R50, R51). -/
def Region.wellFormed (v : Variant) (r : Region) : Bool :=
  decide (r.first ≤ r.last) && decide (r.last < v.addressSpace)

/-- No address lies in two regions: `MemoryMap` is a function (spec/00_scope.md R9). -/
def Region.apart (r q : Region) : Bool := decide (r.last < q.first) || decide (q.last < r.first)

/-- Each region is apart from every later one. -/
def regionsApart : List Region → Bool
  | [] => true
  | r :: rest => rest.all r.apart && regionsApart rest

/-- A configuration a platform can have: proper regions, no address in two of them, and S.O. used only where the member
has the pin (spec/00_scope.md R5, R9). The step does not ask for it; it says which configurations are meant. -/
def Config.wellFormed (c : Config) : Bool :=
  c.memoryMap.all (Region.wellFormed c.variant) && regionsApart c.memoryMap && (!c.soUsed || c.variant.hasSo)

end Sys2Proof
end

