-- ==== Sys2Proof/Decode.lean ====
section
/-! DEFINITION. Decoding bytes to instructions, total and by the table of spec/30_encoding.md R84, and encoding instructions to
bytes. Decoding follows R84's map by opcode byte; encoding follows R84's table by mnemonic. -/

namespace Sys2Proof

/-- Why bytes decode to no instruction. -/
inductive DecodeError where
  /-- No byte at all. -/
  | empty
  /-- One of the 105 opcode bytes the table does not assign (R87). -/
  | unassigned (op : Byte)
  /-- Fewer bytes than the instruction has. -/
  | truncated (op : Byte)
  deriving DecidableEq, Repr

/-- How many operand bytes an opcode takes, and the instruction they make (R80, R81, R83). -/
inductive Shape where
  | none (i : Instr)
  | byte (f : Byte → Instr)
  | word (f : Addr → Instr)

/-- Operand bytes after the opcode (R81). -/
def Shape.operandBytes : Shape → Nat
  | .none _ => 0
  | .byte _ => 1
  | .word _ => 2

/-- Row 0x of R84's map by opcode byte. -/
def opcodeRow0 : List (Byte × Shape) :=
  [(0x00, .none .brk), (0x01, .byte .oraIndX), (0x05, .byte .oraZp), (0x06, .byte .aslZp),
   (0x08, .none .php), (0x09, .byte .oraImm), (0x0A, .none .aslAcc), (0x0D, .word .oraAbs),
   (0x0E, .word .aslAbs)]

/-- Row 1x of R84's map by opcode byte. -/
def opcodeRow1 : List (Byte × Shape) :=
  [(0x10, .byte .bpl), (0x11, .byte .oraIndY), (0x15, .byte .oraZpX), (0x16, .byte .aslZpX),
   (0x18, .none .clc), (0x19, .word .oraAbsY), (0x1D, .word .oraAbsX), (0x1E, .word .aslAbsX)]

/-- Row 2x of R84's map by opcode byte. -/
def opcodeRow2 : List (Byte × Shape) :=
  [(0x20, .word .jsr), (0x21, .byte .andIndX), (0x24, .byte .bitZp), (0x25, .byte .andZp),
   (0x26, .byte .rolZp), (0x28, .none .plp), (0x29, .byte .andImm), (0x2A, .none .rolAcc),
   (0x2C, .word .bitAbs), (0x2D, .word .andAbs), (0x2E, .word .rolAbs)]

/-- Row 3x of R84's map by opcode byte. -/
def opcodeRow3 : List (Byte × Shape) :=
  [(0x30, .byte .bmi), (0x31, .byte .andIndY), (0x35, .byte .andZpX), (0x36, .byte .rolZpX),
   (0x38, .none .sec), (0x39, .word .andAbsY), (0x3D, .word .andAbsX), (0x3E, .word .rolAbsX)]

/-- Row 4x of R84's map by opcode byte. -/
def opcodeRow4 : List (Byte × Shape) :=
  [(0x40, .none .rti), (0x41, .byte .eorIndX), (0x45, .byte .eorZp), (0x46, .byte .lsrZp),
   (0x48, .none .pha), (0x49, .byte .eorImm), (0x4A, .none .lsrAcc), (0x4C, .word .jmpAbs),
   (0x4D, .word .eorAbs), (0x4E, .word .lsrAbs)]

/-- Row 5x of R84's map by opcode byte. -/
def opcodeRow5 : List (Byte × Shape) :=
  [(0x50, .byte .bvc), (0x51, .byte .eorIndY), (0x55, .byte .eorZpX), (0x56, .byte .lsrZpX),
   (0x58, .none .cli), (0x59, .word .eorAbsY), (0x5D, .word .eorAbsX), (0x5E, .word .lsrAbsX)]

/-- Row 6x of R84's map by opcode byte. -/
def opcodeRow6 : List (Byte × Shape) :=
  [(0x60, .none .rts), (0x61, .byte .adcIndX), (0x65, .byte .adcZp), (0x66, .byte .rorZp),
   (0x68, .none .pla), (0x69, .byte .adcImm), (0x6A, .none .rorAcc), (0x6C, .word .jmpInd),
   (0x6D, .word .adcAbs), (0x6E, .word .rorAbs)]

/-- Row 7x of R84's map by opcode byte. -/
def opcodeRow7 : List (Byte × Shape) :=
  [(0x70, .byte .bvs), (0x71, .byte .adcIndY), (0x75, .byte .adcZpX), (0x76, .byte .rorZpX),
   (0x78, .none .sei), (0x79, .word .adcAbsY), (0x7D, .word .adcAbsX), (0x7E, .word .rorAbsX)]

/-- Row 8x of R84's map by opcode byte. -/
def opcodeRow8 : List (Byte × Shape) :=
  [(0x81, .byte .staIndX), (0x84, .byte .styZp), (0x85, .byte .staZp), (0x86, .byte .stxZp),
   (0x88, .none .dey), (0x8A, .none .txa), (0x8C, .word .styAbs), (0x8D, .word .staAbs),
   (0x8E, .word .stxAbs)]

/-- Row 9x of R84's map by opcode byte. -/
def opcodeRow9 : List (Byte × Shape) :=
  [(0x90, .byte .bcc), (0x91, .byte .staIndY), (0x94, .byte .styZpX), (0x95, .byte .staZpX),
   (0x96, .byte .stxZpY), (0x98, .none .tya), (0x99, .word .staAbsY), (0x9A, .none .txs),
   (0x9D, .word .staAbsX)]

/-- Row Ax of R84's map by opcode byte. -/
def opcodeRowA : List (Byte × Shape) :=
  [(0xA0, .byte .ldyImm), (0xA1, .byte .ldaIndX), (0xA2, .byte .ldxImm), (0xA4, .byte .ldyZp),
   (0xA5, .byte .ldaZp), (0xA6, .byte .ldxZp), (0xA8, .none .tay), (0xA9, .byte .ldaImm),
   (0xAA, .none .tax), (0xAC, .word .ldyAbs), (0xAD, .word .ldaAbs), (0xAE, .word .ldxAbs)]

/-- Row Bx of R84's map by opcode byte. -/
def opcodeRowB : List (Byte × Shape) :=
  [(0xB0, .byte .bcs), (0xB1, .byte .ldaIndY), (0xB4, .byte .ldyZpX), (0xB5, .byte .ldaZpX),
   (0xB6, .byte .ldxZpY), (0xB8, .none .clv), (0xB9, .word .ldaAbsY), (0xBA, .none .tsx),
   (0xBC, .word .ldyAbsX), (0xBD, .word .ldaAbsX), (0xBE, .word .ldxAbsY)]

/-- Row Cx of R84's map by opcode byte. -/
def opcodeRowC : List (Byte × Shape) :=
  [(0xC0, .byte .cpyImm), (0xC1, .byte .cmpIndX), (0xC4, .byte .cpyZp), (0xC5, .byte .cmpZp),
   (0xC6, .byte .decZp), (0xC8, .none .iny), (0xC9, .byte .cmpImm), (0xCA, .none .dex),
   (0xCC, .word .cpyAbs), (0xCD, .word .cmpAbs), (0xCE, .word .decAbs)]

/-- Row Dx of R84's map by opcode byte. -/
def opcodeRowD : List (Byte × Shape) :=
  [(0xD0, .byte .bne), (0xD1, .byte .cmpIndY), (0xD5, .byte .cmpZpX), (0xD6, .byte .decZpX),
   (0xD8, .none .cld), (0xD9, .word .cmpAbsY), (0xDD, .word .cmpAbsX), (0xDE, .word .decAbsX)]

/-- Row Ex of R84's map by opcode byte. -/
def opcodeRowE : List (Byte × Shape) :=
  [(0xE0, .byte .cpxImm), (0xE1, .byte .sbcIndX), (0xE4, .byte .cpxZp), (0xE5, .byte .sbcZp),
   (0xE6, .byte .incZp), (0xE8, .none .inx), (0xE9, .byte .sbcImm), (0xEA, .none .nop),
   (0xEC, .word .cpxAbs), (0xED, .word .sbcAbs), (0xEE, .word .incAbs)]

/-- Row Fx of R84's map by opcode byte. -/
def opcodeRowF : List (Byte × Shape) :=
  [(0xF0, .byte .beq), (0xF1, .byte .sbcIndY), (0xF5, .byte .sbcZpX), (0xF6, .byte .incZpX),
   (0xF8, .none .sed), (0xF9, .word .sbcAbsY), (0xFD, .word .sbcAbsX), (0xFE, .word .incAbsX)]

/-- R84's map by opcode byte. -/
def opcodeMap : List (Byte × Shape) :=
  opcodeRow0 ++ opcodeRow1 ++ opcodeRow2 ++ opcodeRow3 ++ opcodeRow4 ++ opcodeRow5 ++ opcodeRow6 ++ opcodeRow7 ++
    opcodeRow8 ++ opcodeRow9 ++ opcodeRowA ++ opcodeRowB ++ opcodeRowC ++ opcodeRowD ++ opcodeRowE ++ opcodeRowF

/-- What an opcode byte selects; all eight bits count (R80). -/
def shapeOf (op : Byte) : Option Shape := (opcodeMap.find? fun e => e.1 == op).map fun e => e.2

/-- `#`: the bytes of the instruction an opcode begins (R80, R81); 1 for an unassigned byte, which has no more to fetch. -/
def lengthOf (op : Byte) : Nat :=
  match shapeOf op with
  | some sh => 1 + sh.operandBytes
  | none => 1

/-- Read one instruction from the front of some bytes, low operand byte first (R83); the bytes after it come back. -/
def decode : List Byte → Except DecodeError (Instr × List Byte)
  | [] => .error .empty
  | op :: rest =>
    match shapeOf op, rest with
    | none, _ => .error (.unassigned op)
    | some (.none i), rest => .ok (i, rest)
    | some (.byte f), b :: rest => .ok (f b, rest)
    | some (.byte _), [] => .error (.truncated op)
    | some (.word f), lo :: hi :: rest => .ok (f (Machine.joinBytes lo hi), rest)
    | some (.word _), [_] => .error (.truncated op)
    | some (.word _), [] => .error (.truncated op)

/-- The opcode byte of each instruction (R84, the table by mnemonic). -/
def Instr.opcode : Instr → Byte
  | .adcImm _ => 0x69
  | .adcAbs _ => 0x6D
  | .adcZp _ => 0x65
  | .adcIndX _ => 0x61
  | .adcIndY _ => 0x71
  | .adcZpX _ => 0x75
  | .adcAbsX _ => 0x7D
  | .adcAbsY _ => 0x79
  | .andImm _ => 0x29
  | .andAbs _ => 0x2D
  | .andZp _ => 0x25
  | .andIndX _ => 0x21
  | .andIndY _ => 0x31
  | .andZpX _ => 0x35
  | .andAbsX _ => 0x3D
  | .andAbsY _ => 0x39
  | .aslAbs _ => 0x0E
  | .aslZp _ => 0x06
  | .aslAcc => 0x0A
  | .aslZpX _ => 0x16
  | .aslAbsX _ => 0x1E
  | .bcc _ => 0x90
  | .bcs _ => 0xB0
  | .beq _ => 0xF0
  | .bitAbs _ => 0x2C
  | .bitZp _ => 0x24
  | .bmi _ => 0x30
  | .bne _ => 0xD0
  | .bpl _ => 0x10
  | .brk => 0x00
  | .bvc _ => 0x50
  | .bvs _ => 0x70
  | .clc => 0x18
  | .cld => 0xD8
  | .cli => 0x58
  | .clv => 0xB8
  | .cmpImm _ => 0xC9
  | .cmpAbs _ => 0xCD
  | .cmpZp _ => 0xC5
  | .cmpIndX _ => 0xC1
  | .cmpIndY _ => 0xD1
  | .cmpZpX _ => 0xD5
  | .cmpAbsX _ => 0xDD
  | .cmpAbsY _ => 0xD9
  | .cpxImm _ => 0xE0
  | .cpxAbs _ => 0xEC
  | .cpxZp _ => 0xE4
  | .cpyImm _ => 0xC0
  | .cpyAbs _ => 0xCC
  | .cpyZp _ => 0xC4
  | .decAbs _ => 0xCE
  | .decZp _ => 0xC6
  | .decZpX _ => 0xD6
  | .decAbsX _ => 0xDE
  | .dex => 0xCA
  | .dey => 0x88
  | .eorImm _ => 0x49
  | .eorAbs _ => 0x4D
  | .eorZp _ => 0x45
  | .eorIndX _ => 0x41
  | .eorIndY _ => 0x51
  | .eorZpX _ => 0x55
  | .eorAbsX _ => 0x5D
  | .eorAbsY _ => 0x59
  | .incAbs _ => 0xEE
  | .incZp _ => 0xE6
  | .incZpX _ => 0xF6
  | .incAbsX _ => 0xFE
  | .inx => 0xE8
  | .iny => 0xC8
  | .jmpAbs _ => 0x4C
  | .jmpInd _ => 0x6C
  | .jsr _ => 0x20
  | .ldaImm _ => 0xA9
  | .ldaAbs _ => 0xAD
  | .ldaZp _ => 0xA5
  | .ldaIndX _ => 0xA1
  | .ldaIndY _ => 0xB1
  | .ldaZpX _ => 0xB5
  | .ldaAbsX _ => 0xBD
  | .ldaAbsY _ => 0xB9
  | .ldxImm _ => 0xA2
  | .ldxAbs _ => 0xAE
  | .ldxZp _ => 0xA6
  | .ldxAbsY _ => 0xBE
  | .ldxZpY _ => 0xB6
  | .ldyImm _ => 0xA0
  | .ldyAbs _ => 0xAC
  | .ldyZp _ => 0xA4
  | .ldyZpX _ => 0xB4
  | .ldyAbsX _ => 0xBC
  | .lsrAbs _ => 0x4E
  | .lsrZp _ => 0x46
  | .lsrAcc => 0x4A
  | .lsrZpX _ => 0x56
  | .lsrAbsX _ => 0x5E
  | .nop => 0xEA
  | .oraImm _ => 0x09
  | .oraAbs _ => 0x0D
  | .oraZp _ => 0x05
  | .oraIndX _ => 0x01
  | .oraIndY _ => 0x11
  | .oraZpX _ => 0x15
  | .oraAbsX _ => 0x1D
  | .oraAbsY _ => 0x19
  | .pha => 0x48
  | .php => 0x08
  | .pla => 0x68
  | .plp => 0x28
  | .rolAbs _ => 0x2E
  | .rolZp _ => 0x26
  | .rolAcc => 0x2A
  | .rolZpX _ => 0x36
  | .rolAbsX _ => 0x3E
  | .rorAbs _ => 0x6E
  | .rorZp _ => 0x66
  | .rorAcc => 0x6A
  | .rorZpX _ => 0x76
  | .rorAbsX _ => 0x7E
  | .rti => 0x40
  | .rts => 0x60
  | .sbcImm _ => 0xE9
  | .sbcAbs _ => 0xED
  | .sbcZp _ => 0xE5
  | .sbcIndX _ => 0xE1
  | .sbcIndY _ => 0xF1
  | .sbcZpX _ => 0xF5
  | .sbcAbsX _ => 0xFD
  | .sbcAbsY _ => 0xF9
  | .sec => 0x38
  | .sed => 0xF8
  | .sei => 0x78
  | .staAbs _ => 0x8D
  | .staZp _ => 0x85
  | .staIndX _ => 0x81
  | .staIndY _ => 0x91
  | .staZpX _ => 0x95
  | .staAbsX _ => 0x9D
  | .staAbsY _ => 0x99
  | .stxAbs _ => 0x8E
  | .stxZp _ => 0x86
  | .stxZpY _ => 0x96
  | .styAbs _ => 0x8C
  | .styZp _ => 0x84
  | .styZpX _ => 0x94
  | .tax => 0xAA
  | .tay => 0xA8
  | .tsx => 0xBA
  | .txa => 0x8A
  | .txs => 0x9A
  | .tya => 0x98

/-- The mnemonic of each instruction (R84). -/
def Instr.mnemonic : Instr → Mnemonic
  | .adcImm _ => .adc
  | .adcAbs _ => .adc
  | .adcZp _ => .adc
  | .adcIndX _ => .adc
  | .adcIndY _ => .adc
  | .adcZpX _ => .adc
  | .adcAbsX _ => .adc
  | .adcAbsY _ => .adc
  | .andImm _ => .and
  | .andAbs _ => .and
  | .andZp _ => .and
  | .andIndX _ => .and
  | .andIndY _ => .and
  | .andZpX _ => .and
  | .andAbsX _ => .and
  | .andAbsY _ => .and
  | .aslAbs _ => .asl
  | .aslZp _ => .asl
  | .aslAcc => .asl
  | .aslZpX _ => .asl
  | .aslAbsX _ => .asl
  | .bcc _ => .bcc
  | .bcs _ => .bcs
  | .beq _ => .beq
  | .bitAbs _ => .bit
  | .bitZp _ => .bit
  | .bmi _ => .bmi
  | .bne _ => .bne
  | .bpl _ => .bpl
  | .brk => .brk
  | .bvc _ => .bvc
  | .bvs _ => .bvs
  | .clc => .clc
  | .cld => .cld
  | .cli => .cli
  | .clv => .clv
  | .cmpImm _ => .cmp
  | .cmpAbs _ => .cmp
  | .cmpZp _ => .cmp
  | .cmpIndX _ => .cmp
  | .cmpIndY _ => .cmp
  | .cmpZpX _ => .cmp
  | .cmpAbsX _ => .cmp
  | .cmpAbsY _ => .cmp
  | .cpxImm _ => .cpx
  | .cpxAbs _ => .cpx
  | .cpxZp _ => .cpx
  | .cpyImm _ => .cpy
  | .cpyAbs _ => .cpy
  | .cpyZp _ => .cpy
  | .decAbs _ => .dec
  | .decZp _ => .dec
  | .decZpX _ => .dec
  | .decAbsX _ => .dec
  | .dex => .dex
  | .dey => .dey
  | .eorImm _ => .eor
  | .eorAbs _ => .eor
  | .eorZp _ => .eor
  | .eorIndX _ => .eor
  | .eorIndY _ => .eor
  | .eorZpX _ => .eor
  | .eorAbsX _ => .eor
  | .eorAbsY _ => .eor
  | .incAbs _ => .inc
  | .incZp _ => .inc
  | .incZpX _ => .inc
  | .incAbsX _ => .inc
  | .inx => .inx
  | .iny => .iny
  | .jmpAbs _ => .jmp
  | .jmpInd _ => .jmp
  | .jsr _ => .jsr
  | .ldaImm _ => .lda
  | .ldaAbs _ => .lda
  | .ldaZp _ => .lda
  | .ldaIndX _ => .lda
  | .ldaIndY _ => .lda
  | .ldaZpX _ => .lda
  | .ldaAbsX _ => .lda
  | .ldaAbsY _ => .lda
  | .ldxImm _ => .ldx
  | .ldxAbs _ => .ldx
  | .ldxZp _ => .ldx
  | .ldxAbsY _ => .ldx
  | .ldxZpY _ => .ldx
  | .ldyImm _ => .ldy
  | .ldyAbs _ => .ldy
  | .ldyZp _ => .ldy
  | .ldyZpX _ => .ldy
  | .ldyAbsX _ => .ldy
  | .lsrAbs _ => .lsr
  | .lsrZp _ => .lsr
  | .lsrAcc => .lsr
  | .lsrZpX _ => .lsr
  | .lsrAbsX _ => .lsr
  | .nop => .nop
  | .oraImm _ => .ora
  | .oraAbs _ => .ora
  | .oraZp _ => .ora
  | .oraIndX _ => .ora
  | .oraIndY _ => .ora
  | .oraZpX _ => .ora
  | .oraAbsX _ => .ora
  | .oraAbsY _ => .ora
  | .pha => .pha
  | .php => .php
  | .pla => .pla
  | .plp => .plp
  | .rolAbs _ => .rol
  | .rolZp _ => .rol
  | .rolAcc => .rol
  | .rolZpX _ => .rol
  | .rolAbsX _ => .rol
  | .rorAbs _ => .ror
  | .rorZp _ => .ror
  | .rorAcc => .ror
  | .rorZpX _ => .ror
  | .rorAbsX _ => .ror
  | .rti => .rti
  | .rts => .rts
  | .sbcImm _ => .sbc
  | .sbcAbs _ => .sbc
  | .sbcZp _ => .sbc
  | .sbcIndX _ => .sbc
  | .sbcIndY _ => .sbc
  | .sbcZpX _ => .sbc
  | .sbcAbsX _ => .sbc
  | .sbcAbsY _ => .sbc
  | .sec => .sec
  | .sed => .sed
  | .sei => .sei
  | .staAbs _ => .sta
  | .staZp _ => .sta
  | .staIndX _ => .sta
  | .staIndY _ => .sta
  | .staZpX _ => .sta
  | .staAbsX _ => .sta
  | .staAbsY _ => .sta
  | .stxAbs _ => .stx
  | .stxZp _ => .stx
  | .stxZpY _ => .stx
  | .styAbs _ => .sty
  | .styZp _ => .sty
  | .styZpX _ => .sty
  | .tax => .tax
  | .tay => .tay
  | .tsx => .tsx
  | .txa => .txa
  | .txs => .txs
  | .tya => .tya

/-- The addressing mode of each instruction, with its operand (R81, R84). -/
def Instr.operand : Instr → Operand
  | .adcImm imm => .immediate imm
  | .adcAbs addr => .memory (.absolute addr)
  | .adcZp zp => .memory (.zeroPage zp)
  | .adcIndX zp => .memory (.indexedIndirectX zp)
  | .adcIndY zp => .memory (.indirectIndexedY zp)
  | .adcZpX zp => .memory (.zeroPageX zp)
  | .adcAbsX addr => .memory (.absoluteX addr)
  | .adcAbsY addr => .memory (.absoluteY addr)
  | .andImm imm => .immediate imm
  | .andAbs addr => .memory (.absolute addr)
  | .andZp zp => .memory (.zeroPage zp)
  | .andIndX zp => .memory (.indexedIndirectX zp)
  | .andIndY zp => .memory (.indirectIndexedY zp)
  | .andZpX zp => .memory (.zeroPageX zp)
  | .andAbsX addr => .memory (.absoluteX addr)
  | .andAbsY addr => .memory (.absoluteY addr)
  | .aslAbs addr => .memory (.absolute addr)
  | .aslZp zp => .memory (.zeroPage zp)
  | .aslAcc => .accumulator
  | .aslZpX zp => .memory (.zeroPageX zp)
  | .aslAbsX addr => .memory (.absoluteX addr)
  | .bcc rel => .relative rel
  | .bcs rel => .relative rel
  | .beq rel => .relative rel
  | .bitAbs addr => .memory (.absolute addr)
  | .bitZp zp => .memory (.zeroPage zp)
  | .bmi rel => .relative rel
  | .bne rel => .relative rel
  | .bpl rel => .relative rel
  | .brk => .implied
  | .bvc rel => .relative rel
  | .bvs rel => .relative rel
  | .clc => .implied
  | .cld => .implied
  | .cli => .implied
  | .clv => .implied
  | .cmpImm imm => .immediate imm
  | .cmpAbs addr => .memory (.absolute addr)
  | .cmpZp zp => .memory (.zeroPage zp)
  | .cmpIndX zp => .memory (.indexedIndirectX zp)
  | .cmpIndY zp => .memory (.indirectIndexedY zp)
  | .cmpZpX zp => .memory (.zeroPageX zp)
  | .cmpAbsX addr => .memory (.absoluteX addr)
  | .cmpAbsY addr => .memory (.absoluteY addr)
  | .cpxImm imm => .immediate imm
  | .cpxAbs addr => .memory (.absolute addr)
  | .cpxZp zp => .memory (.zeroPage zp)
  | .cpyImm imm => .immediate imm
  | .cpyAbs addr => .memory (.absolute addr)
  | .cpyZp zp => .memory (.zeroPage zp)
  | .decAbs addr => .memory (.absolute addr)
  | .decZp zp => .memory (.zeroPage zp)
  | .decZpX zp => .memory (.zeroPageX zp)
  | .decAbsX addr => .memory (.absoluteX addr)
  | .dex => .implied
  | .dey => .implied
  | .eorImm imm => .immediate imm
  | .eorAbs addr => .memory (.absolute addr)
  | .eorZp zp => .memory (.zeroPage zp)
  | .eorIndX zp => .memory (.indexedIndirectX zp)
  | .eorIndY zp => .memory (.indirectIndexedY zp)
  | .eorZpX zp => .memory (.zeroPageX zp)
  | .eorAbsX addr => .memory (.absoluteX addr)
  | .eorAbsY addr => .memory (.absoluteY addr)
  | .incAbs addr => .memory (.absolute addr)
  | .incZp zp => .memory (.zeroPage zp)
  | .incZpX zp => .memory (.zeroPageX zp)
  | .incAbsX addr => .memory (.absoluteX addr)
  | .inx => .implied
  | .iny => .implied
  | .jmpAbs addr => .memory (.absolute addr)
  | .jmpInd ptr => .absoluteIndirect ptr
  | .jsr addr => .memory (.absolute addr)
  | .ldaImm imm => .immediate imm
  | .ldaAbs addr => .memory (.absolute addr)
  | .ldaZp zp => .memory (.zeroPage zp)
  | .ldaIndX zp => .memory (.indexedIndirectX zp)
  | .ldaIndY zp => .memory (.indirectIndexedY zp)
  | .ldaZpX zp => .memory (.zeroPageX zp)
  | .ldaAbsX addr => .memory (.absoluteX addr)
  | .ldaAbsY addr => .memory (.absoluteY addr)
  | .ldxImm imm => .immediate imm
  | .ldxAbs addr => .memory (.absolute addr)
  | .ldxZp zp => .memory (.zeroPage zp)
  | .ldxAbsY addr => .memory (.absoluteY addr)
  | .ldxZpY zp => .memory (.zeroPageY zp)
  | .ldyImm imm => .immediate imm
  | .ldyAbs addr => .memory (.absolute addr)
  | .ldyZp zp => .memory (.zeroPage zp)
  | .ldyZpX zp => .memory (.zeroPageX zp)
  | .ldyAbsX addr => .memory (.absoluteX addr)
  | .lsrAbs addr => .memory (.absolute addr)
  | .lsrZp zp => .memory (.zeroPage zp)
  | .lsrAcc => .accumulator
  | .lsrZpX zp => .memory (.zeroPageX zp)
  | .lsrAbsX addr => .memory (.absoluteX addr)
  | .nop => .implied
  | .oraImm imm => .immediate imm
  | .oraAbs addr => .memory (.absolute addr)
  | .oraZp zp => .memory (.zeroPage zp)
  | .oraIndX zp => .memory (.indexedIndirectX zp)
  | .oraIndY zp => .memory (.indirectIndexedY zp)
  | .oraZpX zp => .memory (.zeroPageX zp)
  | .oraAbsX addr => .memory (.absoluteX addr)
  | .oraAbsY addr => .memory (.absoluteY addr)
  | .pha => .implied
  | .php => .implied
  | .pla => .implied
  | .plp => .implied
  | .rolAbs addr => .memory (.absolute addr)
  | .rolZp zp => .memory (.zeroPage zp)
  | .rolAcc => .accumulator
  | .rolZpX zp => .memory (.zeroPageX zp)
  | .rolAbsX addr => .memory (.absoluteX addr)
  | .rorAbs addr => .memory (.absolute addr)
  | .rorZp zp => .memory (.zeroPage zp)
  | .rorAcc => .accumulator
  | .rorZpX zp => .memory (.zeroPageX zp)
  | .rorAbsX addr => .memory (.absoluteX addr)
  | .rti => .implied
  | .rts => .implied
  | .sbcImm imm => .immediate imm
  | .sbcAbs addr => .memory (.absolute addr)
  | .sbcZp zp => .memory (.zeroPage zp)
  | .sbcIndX zp => .memory (.indexedIndirectX zp)
  | .sbcIndY zp => .memory (.indirectIndexedY zp)
  | .sbcZpX zp => .memory (.zeroPageX zp)
  | .sbcAbsX addr => .memory (.absoluteX addr)
  | .sbcAbsY addr => .memory (.absoluteY addr)
  | .sec => .implied
  | .sed => .implied
  | .sei => .implied
  | .staAbs addr => .memory (.absolute addr)
  | .staZp zp => .memory (.zeroPage zp)
  | .staIndX zp => .memory (.indexedIndirectX zp)
  | .staIndY zp => .memory (.indirectIndexedY zp)
  | .staZpX zp => .memory (.zeroPageX zp)
  | .staAbsX addr => .memory (.absoluteX addr)
  | .staAbsY addr => .memory (.absoluteY addr)
  | .stxAbs addr => .memory (.absolute addr)
  | .stxZp zp => .memory (.zeroPage zp)
  | .stxZpY zp => .memory (.zeroPageY zp)
  | .styAbs addr => .memory (.absolute addr)
  | .styZp zp => .memory (.zeroPage zp)
  | .styZpX zp => .memory (.zeroPageX zp)
  | .tax => .implied
  | .tay => .implied
  | .tsx => .implied
  | .txa => .implied
  | .txs => .implied
  | .tya => .implied

/-- The bytes after the opcode, low byte first (R81, R83). -/
def Operand.bytes : Operand → List Byte
  | .implied => []
  | .accumulator => []
  | .immediate imm => [imm]
  | .memory (.zeroPage zp) => [zp]
  | .memory (.zeroPageX zp) => [zp]
  | .memory (.zeroPageY zp) => [zp]
  | .memory (.absolute addr) => [Machine.loByte addr, Machine.hiByte addr]
  | .memory (.absoluteX addr) => [Machine.loByte addr, Machine.hiByte addr]
  | .memory (.absoluteY addr) => [Machine.loByte addr, Machine.hiByte addr]
  | .memory (.indexedIndirectX zp) => [zp]
  | .memory (.indirectIndexedY zp) => [zp]
  | .absoluteIndirect ptr => [Machine.loByte ptr, Machine.hiByte ptr]
  | .relative rel => [rel]

/-- The name of an operand's mode (R81). -/
def Operand.mode : Operand → Mode
  | .implied => .implied
  | .accumulator => .accumulator
  | .immediate _ => .immediate
  | .memory (.zeroPage _) => .zeroPage
  | .memory (.zeroPageX _) => .zeroPageX
  | .memory (.zeroPageY _) => .zeroPageY
  | .memory (.absolute _) => .absolute
  | .memory (.absoluteX _) => .absoluteX
  | .memory (.absoluteY _) => .absoluteY
  | .memory (.indexedIndirectX _) => .indexedIndirectX
  | .memory (.indirectIndexedY _) => .indirectIndexedY
  | .absoluteIndirect _ => .absoluteIndirect
  | .relative _ => .relative

/-- The bytes of an instruction, opcode first (R80 to R83). -/
def encode (i : Instr) : List Byte := i.opcode :: i.operand.bytes

/-- `#`, the number of bytes of an instruction (R81). -/
def Instr.length (i : Instr) : Nat := (encode i).length

/-- The operand of a reading instruction (spec/40_addressing_modes.md R100, R103). -/
def Source.operand : Source → Operand
  | .immediate imm => .immediate imm
  | .memory m => .memory m

/-- The operand of a shift or rotate (spec/43_shift_incdec.md R160). -/
def Target.operand : Target → Operand
  | .accumulator => .accumulator
  | .memory m => .memory m

/-- The first three bytes of an instruction whose bits are `w`, bit 0 the least significant bit of the first byte. Bits
from `nbits` on are 0. -/
def wordBytes (nbits w : Nat) : List Byte :=
  let v := w % 2 ^ nbits
  [BitVec.ofNat 8 v, BitVec.ofNat 8 (v / 256), BitVec.ofNat 8 (v / 65536)]

/-- The instruction the decoder reads from a table word. -/
def decodeTableWord (nbits w : Nat) : Option Instr :=
  match decode (wordBytes nbits w) with
  | .ok (i, _) => some i
  | .error _ => none

end Sys2Proof
end

