-- ==== Sys2Proof/Machine/Interrupts.lean ====
section
/-! DEFINITION. What happens at an instruction boundary (spec/60_exceptions.md R252): the environment's inputs, which event
comes next, and the reset, NMI and IRQ sequences. -/

namespace Sys2Proof.Machine

/-- Is the S.O. input there and in use (R246). -/
def State.soActive (s : State) : Bool := s.config.variant.hasSo && s.config.soUsed

/-- Take in what the environment does at this boundary: the next queued entry, or, where none is queued, no change of level,
no edge and no byte of memory. An NMI or S.O. edge is latched; the UM6507 has neither input and no IRQ; a DMA agent's bytes are
in memory (R222, R223, R246, R250, R252; spec/20_memory.md R69). -/
def State.applyInputs (s : State) : State :=
  match s.inputs with
  | [] => { s with soLate := false, dmaReads := [] }
  | e :: rest =>
    { s with
      inputs := rest
      mem := s.afterDma e.dma
      resLine := e.res
      rdyLine := e.rdy
      irqLine := if s.config.variant.hasIrq then e.irq else .high
      nmiPending := s.nmiPending || (s.config.variant.hasNmi && e.nmiEdge)
      soEdge := s.soEdge || (s.soActive && e.soEdge)
      soLate := s.soActive && e.soLate
      dmaReads := e.dmaReads }

/-- The start of a step: a new number for its free values, and the environment's inputs. -/
def State.sample (s : State) : State := { s with draws := s.draws + 1 }.applyInputs

/-- What a step does. -/
inductive Event where
  /-- RES is low: the processor is held in reset (spec/70_reset_and_hazards.md R260). -/
  | held
  /-- RES just went high: the reset sequence (spec/70_reset_and_hazards.md R262). -/
  | reset
  /-- RDY is low: no progress (R247). -/
  | halted
  /-- The NMI sequence (R227). -/
  | nmi
  /-- The IRQ sequence (R226). -/
  | irq
  /-- One instruction. -/
  | instruction
  deriving DecidableEq, Repr

/-- `I_seen`, the value of I the IRQ check uses: after CLI, SEI or PLP the old or the new one, as `irqMaskLatency` says;
otherwise the present one (R229). -/
def State.seenMask (s : State) : Bool :=
  match s.maskLatent, s.config.irqMaskLatency with
  | false, _ => s.p.i
  | true, .new => s.p.i
  | true, .old => s.iBefore
  | true, .both => if Config.freeBit s.draws .maskSeen then s.iBefore else s.p.i

/-- NMI recognition, RDY being high (R227). -/
def State.nmiTaken (s : State) : Bool := s.config.variant.hasNmi && s.nmiPending

/-- IRQ recognition, RDY being high and no NMI taken (R226). -/
def State.irqTaken (s : State) : Bool := s.config.variant.hasIrq && decide (s.irqLine = .low) && !s.seenMask

/-- Which event comes next, after the inputs of this boundary: reset, then RDY, then NMI, then IRQ, then an instruction
(R228, R252). -/
def State.event (s : State) : Event :=
  if s.resLine = .low then .held
  else if s.inReset then .reset
  else if s.rdyLine = .low then .halted
  else if s.nmiTaken then .nmi
  else if s.irqTaken then .irq
  else .instruction

/-- A late S.O. edge of a step that computes no V waits as an edge for the next boundary. -/
def State.keepLate (s : State) : State := { s with soEdge := s.soEdge || s.soLate, soLate := false }

/-- RES low: nothing happens but that the processor is in reset (spec/70_reset_and_hazards.md R260). -/
def State.hold (s : State) : State := { s.keepLate with inReset := true }

/-- RDY low: no progress (R247). -/
def State.halt (s : State) : State := s.keepLate

/-- The reset sequence (spec/70_reset_and_hazards.md R262, R263; spec/10_state.md R35): I is set, `nmiPending` is cleared, PC
is loaded from 0xFFFC, no memory is written, and every other register and flag is a draw. An S.O. edge from before is
forgotten with V. -/
def State.resetSequence (s : State) : State :=
  { s with
    a := Config.freeByte s.draws .resetA
    x := Config.freeByte s.draws .resetX
    y := Config.freeByte s.draws .resetY
    sp := Config.freeByte s.draws .resetS
    p :=
      { n := Config.freeBit s.draws .resetN
        v := Config.freeBit s.draws .resetV
        d := Config.freeBit s.draws .resetD
        i := true
        z := Config.freeBit s.draws .resetZ
        c := Config.freeBit s.draws .resetC }
    pc := s.readVector resetVector
    nmiPending := false
    soEdge := false
    soLate := false
    inReset := false
    iBefore := true
    maskLatent := false }

/-- An S.O. edge since the last boundary forces V to 1 (R246, R252). -/
def State.applyEdge (s : State) : State :=
  if s.soEdge then { s.setP { s.p with v := true } with soEdge := false } else s

/-- An S.O. edge inside the step forces V to 1 after the step has written it (R246). -/
def State.applyLate (s : State) : State :=
  if s.soLate then { s.setP { s.p with v := true } with soLate := false } else s

/-- `applyLate` on a step's next state. -/
def lateEdge : Result → Result
  | .next t => .next t.applyLate
  | .fault r => .fault r
  | .refused r => .refused r

/-- The NMI sequence: the request is cleared and the return address is the next instruction's (R230, R232). -/
def State.takeNmi (s : State) : Result :=
  { s with nmiPending := false, maskLatent := false }.takeBreak s.pc false nmiVector

/-- The IRQ sequence (R230, R232). -/
def State.takeIrq (s : State) : Result := { s with maskLatent := false }.takeBreak s.pc false irqVector

/-- The instructions after which the IRQ check may see the old I (R229). -/
def masksLate (i : Instr) : Bool :=
  decide (i.mnemonic = .cli) || decide (i.mnemonic = .sei) || decide (i.mnemonic = .plp)

/-- What the step records before it runs an instruction: `i_before <- P.I` (R252), and whether it is CLI, SEI or PLP. -/
def State.begin (s : State) (i : Instr) : State := { s with iBefore := s.p.i, maskLatent := masksLate i }

/-- The opcode byte at PC. -/
def State.opcodeByte (s : State) : Byte := s.read (.fetch 0) s.pc

/-- Byte `k` of the instruction at PC, addresses wrapping modulo 65536 (spec/10_state.md R32). -/
def State.fetchByte (s : State) (k : Nat) : Byte := s.read (.fetch k) (s.pc + BitVec.ofNat 16 k)

/-- The bytes of the instruction at PC, opcode first, as many as the opcode asks for (spec/30_encoding.md R80, R82). -/
def State.fetch (s : State) : List Byte := (List.range (lengthOf s.opcodeByte)).map s.fetchByte

/-- The instruction at PC, if its opcode is assigned. -/
def State.fetched (s : State) : Option Instr :=
  match decode s.fetch with
  | .ok (i, _) => some i
  | .error _ => none

/-- Store the three bytes of a table word at PC, whatever the memory map says: this stands for loading a program from
outside (spec/70_reset_and_hazards.md R266, log entry 5). -/
def State.loadWord (s : State) (nbits w : Nat) : State :=
  let cells := (wordBytes nbits w).zipIdx
  { s with mem := cells.foldl (fun m c => m.set (s.phys (s.pc + BitVec.ofNat 16 c.2)) c.1) s.mem }

end Sys2Proof.Machine
end

