-- ==== Sys2Proof/Machine/Run.lean ====
section
/-! DEFINITION. What a step does once its event is known (spec/60_exceptions.md R252). -/

namespace Sys2Proof.Machine

/-- Fetch, decode and execute one instruction; an unassigned opcode is refused (R252, spec/30_encoding.md R87). -/
def runInstruction (s : State) : Result :=
  match s.fetched with
  | some i => exec i (s.begin i)
  | none => .refused (.unassignedOpcode s.opcodeByte)

/-- What a step does once its event is known; S.O. edges act before and after it (R246, R252). -/
def act (s : State) : Event → Result
  | .held => .next s.hold
  | .reset => .next s.resetSequence
  | .halted => .next s.halt
  | .nmi => lateEdge s.applyEdge.takeNmi
  | .irq => lateEdge s.applyEdge.takeIrq
  | .instruction => lateEdge (runInstruction s.applyEdge)

end Sys2Proof.Machine
end

