-- ==== Sys2Proof/Machine/Step.lean ====
section
/-! DEFINITION. One step of the machine (spec/60_exceptions.md R252). -/

namespace Sys2Proof.Machine

/-- One step: the environment's inputs, then one event (R252). -/
def step (s : State) : Host.Outcome State Fault Refusal := act s.sample s.sample.event

/-- `s` with a table word stored where the next step fetches its instruction. -/
def State.withFetchWord (s : State) (nbits w : Nat) : State := s.loadWord nbits w

end Sys2Proof.Machine
end

