-- ==== Sys2Proof/Machine/Timing.lean ====
section
/-! DEFINITION. The cycle counts of the instruction table (spec/70_reset_and_hazards.md R270 to R277). They are informative:
no state counts cycles (R270), so the step does not use them (log entry 23). -/

namespace Sys2Proof.Machine

/-- The columns of R271's table, and the instructions it lists one by one. -/
inductive CycleClass where
  | reads
  | stores
  | modifies
  | branch
  | other (n : Nat)
  deriving DecidableEq, Repr

/-- Which column an instruction is counted in (R271). -/
def cycleClass : Mnemonic → CycleClass
  | .adc => .reads
  | .and => .reads
  | .bit => .reads
  | .cmp => .reads
  | .cpx => .reads
  | .cpy => .reads
  | .eor => .reads
  | .lda => .reads
  | .ldx => .reads
  | .ldy => .reads
  | .ora => .reads
  | .sbc => .reads
  | .sta => .stores
  | .stx => .stores
  | .sty => .stores
  | .asl => .modifies
  | .lsr => .modifies
  | .rol => .modifies
  | .ror => .modifies
  | .inc => .modifies
  | .dec => .modifies
  | .bcc => .branch
  | .bcs => .branch
  | .beq => .branch
  | .bmi => .branch
  | .bne => .branch
  | .bpl => .branch
  | .bvc => .branch
  | .bvs => .branch
  | .pha => .other 3
  | .php => .other 3
  | .pla => .other 4
  | .plp => .other 4
  | .rts => .other 6
  | .rti => .other 6
  | .brk => .other 7
  | .jmp => .other 3
  | .jsr => .other 6
  | .clc => .other 2
  | .cld => .other 2
  | .cli => .other 2
  | .clv => .other 2
  | .dex => .other 2
  | .dey => .other 2
  | .inx => .other 2
  | .iny => .other 2
  | .nop => .other 2
  | .sec => .other 2
  | .sed => .other 2
  | .sei => .other 2
  | .tax => .other 2
  | .tay => .other 2
  | .tsx => .other 2
  | .txa => .other 2
  | .txs => .other 2
  | .tya => .other 2

/-- `n` of a reading instruction by mode, before note (1) (R271). -/
def readCycles : MemMode → Nat
  | .zeroPage _ => 3
  | .zeroPageX _ => 4
  | .zeroPageY _ => 4
  | .absolute _ => 4
  | .absoluteX _ => 4
  | .absoluteY _ => 4
  | .indexedIndirectX _ => 6
  | .indirectIndexedY _ => 5

/-- `n` of a store by mode (R271). -/
def storeCycles : MemMode → Nat
  | .zeroPage _ => 3
  | .zeroPageX _ => 4
  | .zeroPageY _ => 4
  | .absolute _ => 4
  | .absoluteX _ => 5
  | .absoluteY _ => 5
  | .indexedIndirectX _ => 6
  | .indirectIndexedY _ => 6

/-- `n` of a read-modify-write instruction is two more than a store's (R271). -/
def modifyCycles (m : MemMode) : Nat := storeCycles m + 2

/-- `n` of each instruction, before notes (1) and (2) (R271, R273). -/
def baseCycles (i : Instr) : Nat :=
  match cycleClass i.mnemonic, i.operand with
  | .reads, .memory m => readCycles m
  | .reads, _ => 2
  | .stores, .memory m => storeCycles m
  | .stores, _ => 2
  | .modifies, .memory m => modifyCycles m
  | .modifies, _ => 2
  | .branch, _ => 2
  | .other _, .absoluteIndirect _ => 5
  | .other n, _ => n

/-- Does the index addition of this mode carry out of the low byte (spec/40_addressing_modes.md R108, R109, R111). -/
def State.crossesPage (s : State) : MemMode → Bool
  | .absoluteX addr => decide (256 ≤ (loByte addr).toNat + s.x.toNat)
  | .absoluteY addr => decide (256 ≤ (loByte addr).toNat + s.y.toNat)
  | .indirectIndexedY zp => decide (256 ≤ (s.read .pointerLow (zext16 zp)).toNat + s.y.toNat)
  | .zeroPage _ => false
  | .zeroPageX _ => false
  | .zeroPageY _ => false
  | .absolute _ => false
  | .indexedIndirectX _ => false

/-- The condition each branch tests (spec/44_branch_jump.md R181 to R188); false for an instruction that is no branch. -/
def takesBranch (p : Status) : Mnemonic → Bool
  | .bcc => !p.c
  | .bcs => p.c
  | .beq => p.z
  | .bne => !p.z
  | .bmi => p.n
  | .bpl => !p.n
  | .bvc => !p.v
  | .bvs => p.v
  | _ => false

/-- The cycles notes (1) and (2) add (R277). Note (1) counts for CMP and ORA too (C19). -/
def State.extraCycles (s : State) (i : Instr) : Nat :=
  match cycleClass i.mnemonic, i.operand with
  | .reads, .memory m => if s.crossesPage m then 1 else 0
  | .branch, .relative rel =>
    if takesBranch s.p i.mnemonic then if hiByte (s.branchTarget rel) = hiByte s.afterBranch then 1 else 2 else 0
  | _, _ => 0

/-- The cycles an instruction takes in a state, RDY being high (R270, R277). -/
def State.cycles (s : State) (i : Instr) : Nat := baseCycles i + s.extraCycles i

/-- The cycles of an NMI or IRQ sequence (PRESUMED by the spec itself, R270, R274). -/
def interruptCycles : Nat := 7

end Sys2Proof.Machine
end

