-- ==== Sys2Proof/Safety.lean ====
section
/-! DEFINITION. What claims mean by a run: steps that none stops, the end of a run (spec/60_exceptions.md R249,
`END_OF_RUN`), and the states that a run can be in. -/

namespace Sys2Proof.Machine

/-- `n` steps from `s` lead to `t`, with no refusal on the way. -/
def Runs (n : Nat) (s t : State) : Prop := Host.Core.run Sys2Proof.core n s = .next t

/-- Does the step from `s` ask `END_OF_RUN`: R252 asks it after an interrupt sequence and after an instruction, not while the
processor is held in reset or halted nor after the reset sequence. -/
def State.asksEnd (s : State) : Bool :=
  match s.sample.event with
  | .held => false
  | .reset => false
  | .halted => false
  | .nmi => true
  | .irq => true
  | .instruction => true

/-- At most `n` steps, ending after the first that asks `END_OF_RUN` of a state it holds of: a platform convention (R249, R252,
D24). -/
def runUntil (endOfRun : State → Bool) : Nat → State → Result
  | 0, s => .next s
  | k + 1, s =>
    match step s with
    | .next t => if s.asksEnd && endOfRun t then .next t else runUntil endOfRun k t
    | .fault r => .fault r
    | .refused r => .refused r

/-- "PC reaches a designated address" (R249). -/
def atAddress (a : Addr) (s : State) : Bool := decide (s.pc = a)

/-- "a JMP to itself is reached with I = 1 or with no interrupt source" (R249): here with I = 1, IRQ masked, and no NMI
pending. -/
def atSelfJump (s : State) : Bool := decide (s.fetched = some (.jmpAbs s.pc)) && s.p.i && !s.nmiPending

/-- What holds at reset and after every step: the memory is in canonical form and inside the platform's space
(spec/20_memory.md R50, R51), and no request stands on a pin the member does not have or the platform does not use
(spec/60_exceptions.md R246, R250). -/
def State.wf (s : State) : Bool :=
  s.mem.wf && s.mem.within s.config.variant.addressSpace && (s.config.variant.hasNmi || !s.nmiPending) &&
    (s.config.variant.hasIrq || decide (s.irqLine = .high)) && (s.soActive || !s.soEdge) && !s.soLate

/-- The encodings of a mnemonic are exactly these modes with these opcode bytes (spec/30_encoding.md R84). -/
def HasEncodings (k : Mnemonic) (forms : List (Mode × Byte)) : Prop :=
  (∀ i : Instr, i.mnemonic = k → (i.operand.mode, i.opcode) ∈ forms) ∧
    ∀ f ∈ forms, ∃ i : Instr, i.mnemonic = k ∧ (i.operand.mode, i.opcode) = f

/-- What storing `v` at `a` leaves in memory: the byte at `a` is `v` where `a` is ram; every other byte, and every byte
where `a` is not ram, reads as before (spec/20_memory.md R53). -/
def StoresAt (s t : State) (a : Addr) (v : Byte) : Prop :=
  (s.kindAt a = .ram → t.peek a = v) ∧
    ∀ b, s.kindAt a ≠ .ram ∨ s.phys b ≠ s.phys a → t.peek b = s.peek b

/-- What pushing the bytes `vs`, first to last, leaves: S is that much lower, each byte that lands in ram is there, and
every byte of memory outside the pushed ones, and every byte that is not ram, reads as before (spec/20_memory.md R60). -/
def Pushes (s t : State) (vs : List Byte) : Prop :=
  t.sp = s.sp - BitVec.ofNat 8 vs.length ∧
    (∀ k v, vs[k]? = some v → s.kindAt (stackAddr (s.sp - BitVec.ofNat 8 k)) = .ram →
      t.peek (stackAddr (s.sp - BitVec.ofNat 8 k)) = v) ∧
    ∀ b, (s.kindAt b ≠ .ram ∨ ∀ k < vs.length, s.phys b ≠ s.phys (stackAddr (s.sp - BitVec.ofNat 8 k))) →
      t.peek b = s.peek b

/-- What taking a break or an interrupt leaves: PCH, PCL and the image of P pushed, I set, PC at the word the vector
holds, and everything but S, memory, P and PC as it was (spec/60_exceptions.md R230). -/
def Enters (s t : State) (ret : Addr) (b : Bool) (vec : Addr) : Prop :=
  Pushes s t [hiByte ret, loByte ret, s.p.image b] ∧ t.p = { s.p with i := true } ∧ t.pc = s.readVector vec ∧
    { t with sp := s.sp, p := s.p, pc := s.pc, mem := s.mem } = s

/-- The stack and data are plain memory: page one is ram and no DMA agent changes ram. -/
def PlainStack (s : State) : Prop :=
  s.config.dmaAgent = false ∧ ∀ sp : Byte, s.kindAt (stackAddr sp) = .ram

/-! What follows says in numbers what the meanings say in bits, for the statements to compare them with. -/

/-- N and Z from a result, as numbers: N where it is at least 128, Z where it is 0 (spec/10_state.md R30). -/
def Status.fromResult (p : Status) (r : Byte) : Status :=
  { p with n := decide (128 ≤ r.toNat), z := decide (r.toNat = 0) }

/-- `lo + 256*hi` (spec/20_memory.md R56). -/
def word (lo hi : Byte) : Addr := BitVec.ofNat 16 (lo.toNat + 256 * hi.toNat)

/-- `s` at the instruction after `i` (spec/10_state.md R32). -/
def State.after (s : State) (i : Instr) : State := { s with pc := BitVec.ofNat 16 (s.pc.toNat + i.length) }

/-- `s` after a branch: `rel` counted as a signed number from the next instruction where `cond` holds
(spec/44_branch_jump.md R180). -/
def State.branched (s : State) (rel : Byte) (cond : Bool) : State :=
  { s with pc := BitVec.ofInt 16 (s.pc.toNat + 2 + if cond then rel.toInt else 0) }

/-- The page-zero bytes an indirect mode reads its pointer from (spec/40_addressing_modes.md R110, R111). -/
def State.pointerBytes (s : State) : MemMode → List Addr
  | .indexedIndirectX zp =>
    [BitVec.ofNat 16 ((zp.toNat + s.x.toNat) % 256), BitVec.ofNat 16 ((zp.toNat + s.x.toNat + 1) % 256)]
  | .indirectIndexedY zp => [BitVec.ofNat 16 zp.toNat, BitVec.ofNat 16 ((zp.toNat + 1) % 256)]
  | .zeroPage _ => []
  | .zeroPageX _ => []
  | .zeroPageY _ => []
  | .absolute _ => []
  | .absoluteX _ => []
  | .absoluteY _ => []

/-- An address lies in a device whose accesses have side effects (spec/20_memory.md R59). -/
def State.sideEffectAt (s : State) (a : Addr) : Prop := s.kindAt a = .device true

/-- The operand or a pointer byte of this mode lies in such a device (spec/20_memory.md R59). -/
def State.sideEffectOperand (s : State) (m : MemMode) : Prop := ∃ a ∈ s.ea m :: s.pointerBytes m, s.sideEffectAt a

/-- A loading or storing instruction in this mode is one R59 refuses: indexed or indirect, with such an operand. -/
def State.refusedOperand (s : State) (m : MemMode) : Prop := m.isDirect = false ∧ s.sideEffectOperand m

/-- The same for an instruction that may also have an immediate operand. -/
def State.refusedSource (s : State) : Source → Prop
  | .immediate _ => False
  | .memory m => s.refusedOperand m

/-- One of the `n` bytes that pushes write lies in such a device. -/
def State.refusedPush (s : State) (n : Nat) : Prop :=
  ∃ k < n, s.sideEffectAt (stackAddr (s.sp - BitVec.ofNat 8 k))

/-- One of the `n` bytes that pulls read lies in such a device. -/
def State.refusedPull (s : State) (n : Nat) : Prop :=
  ∃ k < n, s.sideEffectAt (stackAddr (s.sp + BitVec.ofNat 8 (k + 1)))

/-- One of the three bytes of an instruction at PC lies where two pushes write (spec/44_branch_jump.md R189). -/
def State.underPushes (s : State) : Prop :=
  ∃ k < 3, ∃ j < 2, s.phys (s.pc + BitVec.ofNat 16 k) = s.phys (stackAddr (s.sp - BitVec.ofNat 8 j))

/-- The 105 bytes of spec/30_encoding.md R87. -/
def unassignedBytes : List Byte :=
  [0x02, 0x03, 0x04, 0x07, 0x0B, 0x0C, 0x0F, 0x12, 0x13, 0x14, 0x17, 0x1A, 0x1B, 0x1C, 0x1F] ++
  [0x22, 0x23, 0x27, 0x2B, 0x2F, 0x32, 0x33, 0x34, 0x37, 0x3A, 0x3B, 0x3C, 0x3F] ++
  [0x42, 0x43, 0x44, 0x47, 0x4B, 0x4F, 0x52, 0x53, 0x54, 0x57, 0x5A, 0x5B, 0x5C, 0x5F] ++
  [0x62, 0x63, 0x64, 0x67, 0x6B, 0x6F, 0x72, 0x73, 0x74, 0x77, 0x7A, 0x7B, 0x7C, 0x7F] ++
  [0x80, 0x82, 0x83, 0x87, 0x89, 0x8B, 0x8F, 0x92, 0x93, 0x97, 0x9B, 0x9C, 0x9E, 0x9F] ++
  [0xA3, 0xA7, 0xAB, 0xAF, 0xB2, 0xB3, 0xB7, 0xBB, 0xBF] ++
  [0xC2, 0xC3, 0xC7, 0xCB, 0xCF, 0xD2, 0xD3, 0xD4, 0xD7, 0xDA, 0xDB, 0xDC, 0xDF] ++
  [0xE2, 0xE3, 0xE7, 0xEB, 0xEF, 0xF2, 0xF3, 0xF4, 0xF7, 0xFA, 0xFB, 0xFC, 0xFF]

/-- The bytes of an instruction by its operand: opcode first, a two-byte operand low byte first (spec/30_encoding.md R81). -/
def operandLayout (op : Byte) : Operand → List Byte
  | .implied => [op]
  | .accumulator => [op]
  | .immediate imm => [op, imm]
  | .memory (.zeroPage zp) => [op, zp]
  | .memory (.zeroPageX zp) => [op, zp]
  | .memory (.zeroPageY zp) => [op, zp]
  | .memory (.absolute addr) => [op, BitVec.ofNat 8 addr.toNat, BitVec.ofNat 8 (addr.toNat / 256)]
  | .memory (.absoluteX addr) => [op, BitVec.ofNat 8 addr.toNat, BitVec.ofNat 8 (addr.toNat / 256)]
  | .memory (.absoluteY addr) => [op, BitVec.ofNat 8 addr.toNat, BitVec.ofNat 8 (addr.toNat / 256)]
  | .memory (.indexedIndirectX zp) => [op, zp]
  | .memory (.indirectIndexedY zp) => [op, zp]
  | .absoluteIndirect ptr => [op, BitVec.ofNat 8 ptr.toNat, BitVec.ofNat 8 (ptr.toNat / 256)]
  | .relative rel => [op, rel]

/-- The stores and pushes: the instructions that write memory (spec/41_load_store_transfer.md, spec/43_shift_incdec.md,
spec/44_branch_jump.md, spec/45_stack_flag_system.md). -/
def writesMemory (k : Mnemonic) : Prop :=
  k ∈ [.sta, .stx, .sty, .asl, .lsr, .rol, .ror, .inc, .dec, .pha, .php, .jsr, .brk]

/-- The cycles of each opcode byte before notes (1) and (2) (spec/30_encoding.md R84; spec/70_reset_and_hazards.md R271). -/
def cycleTable : List (Byte × Nat) :=
  [(0x00, 7), (0x01, 6), (0x05, 3), (0x06, 5), (0x08, 3), (0x09, 2), (0x0A, 2), (0x0D, 4), (0x0E, 6)] ++
  [(0x10, 2), (0x11, 5), (0x15, 4), (0x16, 6), (0x18, 2), (0x19, 4), (0x1D, 4), (0x1E, 7)] ++
  [(0x20, 6), (0x21, 6), (0x24, 3), (0x25, 3), (0x26, 5), (0x28, 4), (0x29, 2), (0x2A, 2), (0x2C, 4), (0x2D, 4),
    (0x2E, 6)] ++
  [(0x30, 2), (0x31, 5), (0x35, 4), (0x36, 6), (0x38, 2), (0x39, 4), (0x3D, 4), (0x3E, 7)] ++
  [(0x40, 6), (0x41, 6), (0x45, 3), (0x46, 5), (0x48, 3), (0x49, 2), (0x4A, 2), (0x4C, 3), (0x4D, 4), (0x4E, 6)] ++
  [(0x50, 2), (0x51, 5), (0x55, 4), (0x56, 6), (0x58, 2), (0x59, 4), (0x5D, 4), (0x5E, 7)] ++
  [(0x60, 6), (0x61, 6), (0x65, 3), (0x66, 5), (0x68, 4), (0x69, 2), (0x6A, 2), (0x6C, 5), (0x6D, 4), (0x6E, 6)] ++
  [(0x70, 2), (0x71, 5), (0x75, 4), (0x76, 6), (0x78, 2), (0x79, 4), (0x7D, 4), (0x7E, 7)] ++
  [(0x81, 6), (0x84, 3), (0x85, 3), (0x86, 3), (0x88, 2), (0x8A, 2), (0x8C, 4), (0x8D, 4), (0x8E, 4)] ++
  [(0x90, 2), (0x91, 6), (0x94, 4), (0x95, 4), (0x96, 4), (0x98, 2), (0x99, 5), (0x9A, 2), (0x9D, 5)] ++
  [(0xA0, 2), (0xA1, 6), (0xA2, 2), (0xA4, 3), (0xA5, 3), (0xA6, 3), (0xA8, 2), (0xA9, 2), (0xAA, 2), (0xAC, 4),
    (0xAD, 4), (0xAE, 4)] ++
  [(0xB0, 2), (0xB1, 5), (0xB4, 4), (0xB5, 4), (0xB6, 4), (0xB8, 2), (0xB9, 4), (0xBA, 2), (0xBC, 4), (0xBD, 4),
    (0xBE, 4)] ++
  [(0xC0, 2), (0xC1, 6), (0xC4, 3), (0xC5, 3), (0xC6, 5), (0xC8, 2), (0xC9, 2), (0xCA, 2), (0xCC, 4), (0xCD, 4),
    (0xCE, 6)] ++
  [(0xD0, 2), (0xD1, 5), (0xD5, 4), (0xD6, 6), (0xD8, 2), (0xD9, 4), (0xDD, 4), (0xDE, 7)] ++
  [(0xE0, 2), (0xE1, 6), (0xE4, 3), (0xE5, 3), (0xE6, 5), (0xE8, 2), (0xE9, 2), (0xEA, 2), (0xEC, 4), (0xED, 4),
    (0xEE, 6)] ++
  [(0xF0, 2), (0xF1, 5), (0xF5, 4), (0xF6, 6), (0xF8, 2), (0xF9, 4), (0xFD, 4), (0xFE, 7)]

/-- The instructions note (1) counts for: the reading ones that have an indexed mode that can cross a page
(spec/70_reset_and_hazards.md R277). -/
def indexReaders : List Mnemonic := [.adc, .and, .cmp, .eor, .lda, .ldx, .ldy, .ora, .sbc]

end Sys2Proof.Machine
end

