-- ==== Sys2Proof/Certificates/Slice0/Obligations.lean ====
section
/-! DEFINITION. The statements for the provers. Each docstring names the rule of spec/ it formalises. A hypothesis
`s.mem.wf = true` says that the memory is in its canonical form, which every step keeps (`StepKeepsTheInvariant`). -/

open Sys2Proof Sys2Proof.Machine

/-! ## Encoding -/

/-- Decoding the bytes of an instruction, followed by any bytes, gives that instruction and leaves those bytes
(spec/30_encoding.md R80, R83, R84). -/
def Obligations.DecodeOfEncode : Prop :=
  ∀ (i : Instr) (rest : List Byte), i.wellFormed = true → decode (encode i ++ rest) = .ok (i, rest)

/-- Bytes that decode are the bytes of the instruction they decode to: no bit of an encoding is ignored
(spec/30_encoding.md R80, R88). -/
def Obligations.DecodedBytesAreTheEncoding : Prop :=
  ∀ (bytes rest : List Byte) (i : Instr), decode bytes = .ok (i, rest) → bytes = encode i ++ rest

/-- "No opcode byte appears twice": two instructions with one opcode byte have one mnemonic and one addressing mode
(spec/30_encoding.md R84). -/
def Obligations.OpcodeFixesMnemonicAndMode : Prop :=
  ∀ i j : Instr, i.opcode = j.opcode → i.mnemonic = j.mnemonic ∧ i.operand.mode = j.operand.mode

/-- The 105 bytes of R87 decode to nothing, every other byte is the opcode of an instruction, and a step that fetches
one of the 105 is refused by the name of that byte (spec/30_encoding.md R84, R87; the refusal is the spec's own decision
D10, DESIGN CHOICE, log entry 24). -/
def Obligations.UnassignedOpcodesAreRefused : Prop :=
  unassignedBytes.length = 105 ∧
    (∀ (op : Byte) (rest : List Byte), op ∈ unassignedBytes → decode (op :: rest) = .error (.unassigned op)) ∧
    (∀ op : Byte, op ∉ unassignedBytes → ∃ i : Instr, i.opcode = op) ∧
    ∀ s : State, s.sample.event = .instruction → s.sample.applyEdge.opcodeByte ∈ unassignedBytes →
      step s = .refused (.unassignedOpcode s.sample.applyEdge.opcodeByte)

/-- The bytes of every instruction are those of its mode's format, so its length is 1, 2 or 3 as the format says
(spec/30_encoding.md R81). -/
def Obligations.FormatsOfTheThirteenModes : Prop :=
  ∀ i : Instr, encode i = operandLayout i.opcode i.operand ∧
    i.length = (match i.operand.mode with
      | .implied => 1 | .accumulator => 1
      | .immediate => 2 | .zeroPage => 2 | .zeroPageX => 2 | .zeroPageY => 2
      | .indexedIndirectX => 2 | .indirectIndexedY => 2 | .relative => 2
      | .absolute => 3 | .absoluteX => 3 | .absoluteY => 3 | .absoluteIndirect => 3)

/-- A few words written out from the table of spec/30_encoding.md R84 decode to the instructions they stand for. -/
def Obligations.SampleWordsDecode : Prop :=
  decode [0xAD, 0x34, 0x12] = .ok (.ldaAbs 0x1234, []) ∧
    decode [0xB1, 0x20] = .ok (.ldaIndY 0x20, []) ∧
    decode [0x96, 0x02] = .ok (.stxZpY 0x02, []) ∧
    decode [0x69, 0x50] = .ok (.adcImm 0x50, []) ∧
    decode [0x2A] = .ok (.rolAcc, []) ∧
    decode [0xD0, 0xF7] = .ok (.bne 0xF7, []) ∧
    decode [0x6C, 0x80, 0x02] = .ok (.jmpInd 0x0280, []) ∧
    decode [0x20, 0x34, 0x12] = .ok (.jsr 0x1234, []) ∧
    decode [0x00] = .ok (.brk, []) ∧
    decode [0x40] = .ok (.rti, [])

/-! ## One step -/

/-- Where an instruction comes next and the bytes at PC decode to `i`, the step is `exec i` on the state after the
inputs of the boundary, with the S.O. edges before and after it; and where nothing is queued and every pin is inactive,
that is `exec i` on `s` itself, but for the numbers and records a step keeps (spec/60_exceptions.md R252; R246 for the
edge after the instruction. That edge's place, the record `maskLatent`, the draw number and the bytes of a DMA agent are
the model's choice, log entries 18, 17, 8 and 12). -/
def Obligations.StepRunsTheDecodedInstruction : Prop :=
  (∀ (s : State) (i : Instr) (rest : List Byte), s.sample.event = .instruction →
    decode ((List.range 3).map s.sample.applyEdge.fetchByte) = .ok (i, rest) →
    step s = lateEdge (exec i (s.sample.applyEdge.begin i))) ∧
  ∀ (s : State) (i : Instr) (rest : List Byte), s.inputs = [] → s.resLine = .high → s.inReset = false →
    s.rdyLine = .high → s.nmiPending = false → s.irqLine = .high → s.soEdge = false → s.soLate = false →
    decode ((List.range 3).map { s with draws := s.draws + 1, dmaReads := [] }.fetchByte) = .ok (i, rest) →
    step s = exec i { s with draws := s.draws + 1, dmaReads := [], iBefore := s.p.i, maskLatent := masksLate i }

/-- What a boundary takes in from the environment, and which event it then has. The next queued entry gives the levels of RES,
RDY and IRQ, an NMI edge is latched where the member has NMI and stays latched until the NMI or the reset sequence, an S.O. edge
is latched where the input is in use, and a DMA agent's bytes are in ram; with nothing queued no level, latch or byte changes.
Then reset comes before RDY, RDY before NMI, NMI before IRQ, IRQ before an instruction (spec/60_exceptions.md R222, R223, R226,
R227, R228, R246, R252; spec/20_memory.md R69. The queue and its empty case, the late S.O. edge and the two lists of a DMA
agent's bytes are the model's choice, log entries 7, 18 and 12; NMI before IRQ is the spec's own general knowledge, log entry
14). -/
def Obligations.InputsAndPriorityAtABoundary : Prop :=
  ∀ s : State,
    (∀ e rest, s.inputs = e :: rest → s.sample.inputs = rest ∧
      s.sample.resLine = e.res ∧ s.sample.rdyLine = e.rdy ∧
      s.sample.irqLine = (if s.config.variant.hasIrq then e.irq else .high) ∧
      (s.sample.nmiPending = true ↔ s.nmiPending = true ∨ (s.config.variant.hasNmi = true ∧ e.nmiEdge = true)) ∧
      (s.sample.soEdge = true ↔
        s.soEdge = true ∨ (s.config.variant.hasSo = true ∧ s.config.soUsed = true ∧ e.soEdge = true)) ∧
      (s.sample.soLate = true ↔ s.config.variant.hasSo = true ∧ s.config.soUsed = true ∧ e.soLate = true) ∧
      (s.mem.wf = true → ∀ a, s.sample.peek a =
        if s.config.dmaAgent = true ∧ s.kindAt a = .ram then (lastOf e.dma (s.phys a)).getD (s.peek a) else s.peek a) ∧
      ∀ use a, s.kindAt a = .ram → s.sample.read use a =
        if s.config.dmaAgent = true then (lastOf e.dmaReads use).getD (s.sample.peek a) else s.sample.peek a) ∧
    (s.inputs = [] →
      { s.sample with draws := s.draws, soLate := s.soLate, dmaReads := s.dmaReads } = s ∧ s.sample.soLate = false ∧
      s.sample.dmaReads = []) ∧
    (∀ t, step s = .next t →
      (s.nmiPending = true → s.sample.event ≠ .nmi → s.sample.event ≠ .reset → t.nmiPending = true) ∧
      (s.sample.soEdge = true → s.sample.event = .held ∨ s.sample.event = .halted → t.soEdge = true)) ∧
    (s.sample.resLine = .low → s.sample.event = .held) ∧
    (s.sample.resLine = .high → s.inReset = true → s.sample.event = .reset) ∧
    (s.sample.resLine = .high → s.inReset = false → s.sample.rdyLine = .low → s.sample.event = .halted) ∧
    (s.sample.resLine = .high → s.inReset = false → s.sample.rdyLine = .high →
      ((s.config.variant.hasNmi = true ∧ s.sample.nmiPending = true → s.sample.event = .nmi) ∧
      (¬(s.config.variant.hasNmi = true ∧ s.sample.nmiPending = true) →
        (s.config.variant.hasIrq = true ∧ s.sample.irqLine = .low ∧ s.sample.seenMask = false → s.sample.event = .irq) ∧
        (¬(s.config.variant.hasIrq = true ∧ s.sample.irqLine = .low ∧ s.sample.seenMask = false) →
          s.sample.event = .instruction))))

/-- The NMI and the IRQ sequence: PCH, PCL and the image of P with bit 4 = 0 are pushed, I is set, PC is the word at
0xFFFA or 0xFFFE, an NMI clears its request, and nothing else changes, but that a late S.O. edge then sets V; it takes 7
cycles (spec/60_exceptions.md R230, R231, R246; the push order, page one, bits 5 and 4 of the image and the 7 cycles are the
spec's own general knowledge, log entry 14; the late edge is the model's choice, log entry 18). -/
def Obligations.InterruptSequences : Prop :=
  interruptCycles = 7 ∧ ∀ s : State, s.mem.wf = true → ¬ s.refusedPush 3 →
    let late (u : State) := if s.sample.soLate = true then { u with p := { u.p with v := true }, soLate := false } else u
    (s.sample.event = .nmi → ∃ u, step s = .next (late u) ∧
      Enters { s.sample.applyEdge with nmiPending := false, maskLatent := false } u s.pc false 0xFFFA) ∧
    (s.sample.event = .irq → ∃ u, step s = .next (late u) ∧
      Enters { s.sample.applyEdge with maskLatent := false } u s.pc false 0xFFFE)

/-- The I that the IRQ check sees at the boundary after an instruction `k` (spec/60_exceptions.md R229): the present
one, but after CLI, SEI and PLP the one from before under `old`, and either of the two under `both` (the spec's own
parameter, log entry 17). -/
def Obligations.MaskSeenAfterAnInstruction : Prop :=
  ∀ (s t : State) (k : Instr), s.sample.event = .instruction → s.sample.applyEdge.fetched = some k → step s = .next t →
    (k.mnemonic ∉ [.cli, .sei, .plp] → t.sample.seenMask = t.p.i) ∧
    (s.config.irqMaskLatency = .new → t.sample.seenMask = t.p.i) ∧
    (k.mnemonic ∈ [.cli, .sei, .plp] → s.config.irqMaskLatency = .old → t.sample.seenMask = s.p.i) ∧
    (k.mnemonic ∈ [.cli, .sei, .plp] → s.config.irqMaskLatency = .both →
      t.sample.seenMask = s.p.i ∨ t.sample.seenMask = t.p.i)

/-- While RES is low a step completes, runs nothing, takes no interrupt and changes no register, flag or byte of memory but
those a DMA agent changes; it only records that the processor is in reset (spec/70_reset_and_hazards.md R260, which speaks of
instructions, interrupts and writes; that no register or flag changes before the reset sequence is the model's choice, log entry
16). -/
def Obligations.NothingRunsWhileResIsLow : Prop :=
  ∀ s : State, s.sample.resLine = .low → ∃ t, step s = .next t ∧ t.inReset = true ∧
    { t with inReset := s.inReset, soEdge := s.sample.soEdge, soLate := s.sample.soLate } = s.sample ∧
    t.a = s.a ∧ t.x = s.x ∧ t.y = s.y ∧ t.sp = s.sp ∧ t.pc = s.pc ∧ t.p = s.p ∧
    (s.config.dmaAgent = false → t.mem = s.mem)

/-- The reset sequence: I is set, PC is the word at 0xFFFC, `nmi_pending` is cleared and no byte of memory is written, so that
memory is what a DMA agent left (spec/70_reset_and_hazards.md R261, R262; the last two are the spec's own decision D14, log
entry 16). -/
def Obligations.ResetSequence : Prop :=
  ∀ s : State, s.sample.resLine = .high → s.inReset = true → ∃ t, step s = .next t ∧
    t.p.i = true ∧ t.pc = word (s.sample.read .vectorLow 0xFFFC) (s.sample.read .vectorHigh 0xFFFD) ∧
    t.nmiPending = false ∧ t.mem = s.sample.mem ∧ (s.config.dmaAgent = false → t.mem = s.mem) ∧ t.inReset = false ∧
    t.config = s.config

/-- While RDY is low a step completes and makes no progress: no register or flag changes, no byte of memory but those a DMA
agent changes, and a latched NMI stays latched (spec/60_exceptions.md R247; that RDY is seen at boundaries only, and how a DMA
agent changes memory, are the model's choice, log entries 19 and 12). -/
def Obligations.NoProgressWhileRdyIsLow : Prop :=
  ∀ s : State, s.sample.resLine = .high → s.inReset = false → s.sample.rdyLine = .low → ∃ t, step s = .next t ∧
    { t with soEdge := s.sample.soEdge, soLate := s.sample.soLate } = s.sample ∧
    t.a = s.a ∧ t.x = s.x ∧ t.y = s.y ∧ t.sp = s.sp ∧ t.pc = s.pc ∧ t.p = s.p ∧
    (s.config.dmaAgent = false → t.mem = s.mem) ∧ (s.nmiPending = true → t.nmiPending = true)

/-- On the UM6507 the IRQ line is never low, no NMI is ever pending, neither sequence runs, and the memory sees the
vector of BRK at 0x1FFE (spec/60_exceptions.md R250, the spec's own decision D21, DEDUCED, log entry 27). -/
def Obligations.Um6507TakesNoInterrupt : Prop :=
  ∀ s : State, s.wf = true → s.config.variant = .um6507 →
    s.sample.irqLine = .high ∧ s.sample.nmiPending = false ∧ s.sample.event ≠ .nmi ∧ s.sample.event ≠ .irq ∧
      s.phys irqVector = 0x1FFE

/-- An S.O. edge: before an instruction that does not write V, and before an interrupt sequence, V is 1 after it; late in a step,
V is 1 after it whatever the step wrote; and where S.O. is not in use, an interrupt sequence and a step whose instruction does
not write V keep V (spec/60_exceptions.md R246; where in a step an edge falls is the model's choice, log entry 18). -/
def Obligations.SetOverflowInput : Prop :=
  (∀ (s t : State) (i : Instr), s.sample.event = .instruction → s.sample.applyEdge.fetched = some i → step s = .next t →
    (s.sample.soLate = true → t.p.v = true) ∧
    (i.mnemonic ∉ [.adc, .sbc, .bit, .clv, .plp, .rti] →
      (s.sample.soEdge = true → t.p.v = true) ∧
      (s.wf = true → s.soActive = false → t.p.v = s.p.v))) ∧
  ∀ s t : State, s.sample.event = .nmi ∨ s.sample.event = .irq → step s = .next t →
    (s.sample.soLate = true ∨ s.sample.soEdge = true → t.p.v = true) ∧
    (s.wf = true → s.soActive = false → t.p.v = s.p.v)

/-! ## Invariants and whole-machine rules -/

/-- Every step keeps the invariant: the memory in canonical form and inside the platform's space, no request on a pin that
is not there or not used (spec/20_memory.md R50, R51; spec/60_exceptions.md R246, R250). -/
def Obligations.StepKeepsTheInvariant : Prop :=
  ∀ s t : State, s.wf = true → step s = .next t → t.wf = true

/-- The state after reset has the invariant. -/
def Obligations.ResetHasTheInvariant : Prop := State.reset.wf = true

/-- What the spec gives of the state after reset: I is 1, PC is the word at 0xFFFC, no NMI is pending (spec/10_state.md
R35). That the word is 0x0000 is the model's choice (log entry 4), as are the other registers (log entries 1, 2, 3). -/
def Obligations.ResetState : Prop :=
  State.reset.p.i = true ∧ State.reset.pc = State.reset.readVector resetVector ∧ State.reset.nmiPending = false

/-- No step changes the configuration (spec/10_state.md R34), every step takes one number for its free values, and every
step uses up one entry of the queued inputs (the model's choice, log entries 6, 7, 8). -/
def Obligations.StepKeepsConfiguration : Prop :=
  ∀ s t : State, step s = .next t → t.config = s.config ∧ t.draws = s.draws + 1 ∧ t.inputs = s.inputs.tail

/-- Ordinary code and data never end a run: with no device whose accesses have side effects, every step completes, but for an
unassigned opcode (spec/30_encoding.md R87), a JMP (indirect) whose pointer ends in 0xFF where the configuration refuses that
(spec/40_addressing_modes.md R112) and a JSR whose bytes its own pushes write (spec/44_branch_jump.md R189, log entry 10). -/
def Obligations.EveryStepCompletes : Prop :=
  ∀ s : State, (∀ a : Addr, ¬ s.sideEffectAt a) →
    s.sample.applyEdge.opcodeByte ∉ unassignedBytes →
    (s.sample.applyEdge.opcodeByte = 0x6C → s.config.jmpIndWrap = .refuse → s.sample.applyEdge.fetchByte 1 ≠ 0xFF) →
    (s.sample.applyEdge.opcodeByte = 0x20 → ¬ s.underPushes) → ∃ t, step s = .next t

/-- Who writes a register: an instruction not named leaves A, X, Y and S as they were (spec/10_state.md R20 to R23). -/
def Obligations.RegisterWriters : Prop :=
  ∀ (i : Instr) (s t : State), exec i s = .next t →
    (t.a ≠ s.a → i.mnemonic ∈ [.adc, .sbc, .and, .ora, .eor, .lda, .pla, .txa, .tya] ∨
      (i.mnemonic ∈ [.asl, .lsr, .rol, .ror] ∧ i.operand = .accumulator)) ∧
    (t.x ≠ s.x → i.mnemonic ∈ [.ldx, .tax, .tsx, .inx, .dex]) ∧
    (t.y ≠ s.y → i.mnemonic ∈ [.ldy, .tay, .iny, .dey]) ∧
    (t.sp ≠ s.sp → i.mnemonic ∈ [.txs, .pha, .php, .pla, .plp, .jsr, .rts, .rti, .brk])

/-- Who writes a flag: an instruction not named leaves it as it was (spec/10_state.md R27). -/
def Obligations.FlagWriters : Prop :=
  ∀ (i : Instr) (s t : State), exec i s = .next t →
    (t.p.n ≠ s.p.n → i.mnemonic ∈ [.adc, .and, .asl, .cmp, .cpx, .cpy, .dec, .dex, .dey, .eor, .inc, .inx, .iny, .lda,
      .ldx, .ldy, .ora, .pla, .rol, .ror, .sbc, .tax, .tay, .tsx, .txa, .tya, .bit, .lsr, .plp, .rti]) ∧
    (t.p.v ≠ s.p.v → i.mnemonic ∈ [.adc, .sbc, .bit, .clv, .plp, .rti]) ∧
    (t.p.d ≠ s.p.d → i.mnemonic ∈ [.cld, .sed, .plp, .rti]) ∧
    (t.p.i ≠ s.p.i → i.mnemonic ∈ [.cli, .sei, .brk, .plp, .rti]) ∧
    (t.p.z ≠ s.p.z → i.mnemonic ∈ [.adc, .and, .asl, .bit, .cmp, .cpx, .cpy, .dec, .dex, .dey, .eor, .inc, .inx, .iny,
      .lda, .ldx, .ldy, .lsr, .ora, .pla, .rol, .ror, .sbc, .tax, .tay, .tsx, .txa, .tya, .plp, .rti]) ∧
    (t.p.c ≠ s.p.c → i.mnemonic ∈ [.adc, .sbc, .asl, .rol, .lsr, .ror, .cmp, .cpx, .cpy, .clc, .sec, .plp, .rti])

/-- An instruction that neither stores nor pushes leaves all of memory, and no instruction touches a pin, a latch, the
queue or the configuration (spec/20_memory.md R66; spec/10_state.md R33, R34). -/
def Obligations.OnlyStoresAndPushesWriteMemory : Prop :=
  ∀ (i : Instr) (s t : State), exec i s = .next t →
    (¬ writesMemory i.mnemonic → t.mem = s.mem) ∧
    { t with a := s.a, x := s.x, y := s.y, sp := s.sp, pc := s.pc, p := s.p, mem := s.mem } = s

/-- Rom, unmapped addresses and devices hold what they held: no step, a DMA agent's bytes among what it takes in,
changes a stored byte that is not ram (spec/10_state.md R34 and spec/20_memory.md R52 for the fixed content of rom, R53
for stores. The rest is the model's choice: a device has no stored bytes of its own, log entry 11; a DMA agent changes
ram only, which the spec does not say, log entry 12; rom is held in the memory of State, log entry 26). -/
def Obligations.StepWritesRamOnly : Prop :=
  ∀ (s t : State) (a : Addr), s.mem.wf = true → step s = .next t → s.kindAt a ≠ .ram → t.peek a = s.peek a

/-- Two memories in canonical form that read alike everywhere are equal. -/
def Obligations.CanonicalMemoriesAreEqual : Prop :=
  ∀ m n : Memory, m.wf = true → n.wf = true → (∀ a, m.get a = n.get a) → m = n

/-- Without a DMA agent a store to ram is seen by the next read and the next fetch of that address and by no other; a
store elsewhere by none (spec/20_memory.md R52, R53, R66, R70. That a device keeps no trace of a store and a read of it
is a draw is the model's choice, log entries 11 and 8; that the next fetch sees a store is the spec's
own decision D22). -/
def Obligations.StoreIsSeenByTheNextRead : Prop :=
  ∀ (s : State) (a b : Addr) (v : Byte) (use : ByteUse), s.mem.wf = true → s.config.dmaAgent = false →
    (s.kindAt a = .ram → (s.write a v).read use a = v) ∧
    (s.phys a ≠ s.phys b ∨ s.kindAt a ≠ .ram → (s.write a v).read use b = s.read use b) ∧
    (s.kindAt a = .ram → ∀ k, s.pc + BitVec.ofNat 16 k = a → (s.write a v).fetchByte k = v)

/-- On the UM6507 addresses that agree modulo 8192 are one location (spec/20_memory.md R51, the spec's own decision D21,
DEDUCED, log entry 27). -/
def Obligations.Um6507SeesThirteenAddressBits : Prop :=
  ∀ (s : State) (a b : Addr) (v : Byte) (use : ByteUse), s.config.variant = .um6507 → a.toNat % 8192 = b.toNat % 8192 →
    s.kindAt a = s.kindAt b ∧ s.read use a = s.read use b ∧ s.write a v = s.write b v

/-- "D affects only ADC and SBC; every other instruction ... is binary regardless of D": but for ADC and SBC, and the
instructions that push the image of P, D decides nothing but D (spec/42_arithmetic_logic.md R142, the spec's own general
knowledge, log entry 14). -/
def Obligations.DecimalFlagAffectsOnlyAddAndSubtract : Prop :=
  ∀ (i : Instr) (s t : State) (b : Bool), i.mnemonic ∉ [.adc, .sbc, .php, .brk] → exec i s = .next t →
    ∃ d, exec i { s with p := { s.p with d := b } } = .next { t with p := { t.p with d := d } }

/-! ## Addressing modes -/

/-- The effective address of each mode in numbers (spec/40_addressing_modes.md R104 to R111; the wraps modulo 65536 and
the wrap of the pointer in (indirect),Y are the spec's own decisions D12, D27). -/
def Obligations.EffectiveAddresses : Prop :=
  ∀ (s : State) (zp : Byte) (addr : Addr),
    let lo (p : Nat) := (s.read .pointerLow (BitVec.ofNat 16 (p % 256))).toNat
    let hi (p : Nat) := (s.read .pointerHigh (BitVec.ofNat 16 ((p + 1) % 256))).toNat
    (s.ea (.zeroPage zp)).toNat = zp.toNat ∧
    (s.ea (.zeroPageX zp)).toNat = (zp.toNat + s.x.toNat) % 256 ∧
    (s.ea (.zeroPageY zp)).toNat = (zp.toNat + s.y.toNat) % 256 ∧
    (s.ea (.absolute addr)).toNat = addr.toNat ∧
    (s.ea (.absoluteX addr)).toNat = (addr.toNat + s.x.toNat) % 65536 ∧
    (s.ea (.absoluteY addr)).toNat = (addr.toNat + s.y.toNat) % 65536 ∧
    (s.ea (.indexedIndirectX zp)).toNat = lo (zp.toNat + s.x.toNat) + 256 * hi (zp.toNat + s.x.toNat) ∧
    (s.ea (.indirectIndexedY zp)).toNat = (lo zp.toNat + 256 * hi zp.toNat + s.y.toNat) % 65536

/-- Which operand an instruction reads: the immediate byte, or the byte at the effective address; from rom, and from ram where no
DMA agent is, that is the stored byte, and from ram with a DMA agent the byte the agent puts there just before, if it does
(spec/40_addressing_modes.md R100, R103; spec/20_memory.md R52, R69; the agent's list is the model's choice, log entry 12). -/
def Obligations.OperandByte : Prop :=
  ∀ (s : State) (imm : Byte) (m : MemMode), s.sourceByte (.immediate imm) = imm ∧
    s.sourceByte (.memory m) = s.read .operand (s.ea m) ∧
    let stored := s.mem.get ((s.ea m).toNat % s.config.variant.addressSpace)
    ((s.kindAt (s.ea m) = .ram ∧ s.config.dmaAgent = false) ∨ s.kindAt (s.ea m) = .rom →
      s.sourceByte (.memory m) = stored) ∧
    (s.kindAt (s.ea m) = .ram → s.config.dmaAgent = true →
      s.sourceByte (.memory m) = (lastOf s.dmaReads .operand).getD stored)

/-- "A page boundary is crossed" where the high byte of the effective address differs from that of its base, in the three modes
that can cross; the cycles of each opcode byte are those of the table; note (1) adds one to the reading instructions that cross,
note (2) one or two to a branch that is taken, and nothing else is added (spec/40_addressing_modes.md R108, R109, R111;
spec/70_reset_and_hazards.md R271, R277; that note (1) counts for CMP and ORA, and which page note (2) compares with, are the
spec's own general knowledge, log entry 23). -/
def Obligations.PageCrossingAndCycles : Prop :=
  ∀ (s : State) (i : Instr) (addr : Addr) (zp : Byte),
    ((s.crossesPage (.absoluteX addr) = true ↔ hiByte (s.ea (.absoluteX addr)) ≠ hiByte addr) ∧
      (s.crossesPage (.absoluteY addr) = true ↔ hiByte (s.ea (.absoluteY addr)) ≠ hiByte addr) ∧
      (s.crossesPage (.indirectIndexedY zp) = true ↔
        hiByte (s.ea (.indirectIndexedY zp)) ≠ s.read .pointerHigh (BitVec.ofNat 16 ((zp.toNat + 1) % 256))) ∧
      ∀ m ∈ [.zeroPage zp, .zeroPageX zp, .zeroPageY zp, .absolute addr, .indexedIndirectX zp],
        s.crossesPage m = false) ∧
    (i.opcode, baseCycles i) ∈ cycleTable ∧
    (∀ m, i.operand = .memory m → i.mnemonic ∈ indexReaders →
      s.cycles i = baseCycles i + if s.crossesPage m = true then 1 else 0) ∧
    (∀ rel, i.operand = .relative rel →
      s.cycles i = 2 +
        if (i.mnemonic, true) ∈ [(.bcc, !s.p.c), (.bcs, s.p.c), (.beq, s.p.z), (.bmi, s.p.n), (.bne, !s.p.z),
          (.bpl, !s.p.n), (.bvc, !s.p.v), (.bvs, s.p.v)] then
          if (s.branched rel true).pc.toNat / 256 = (s.branched rel false).pc.toNat / 256 then 1 else 2
        else 0) ∧
    ((∀ rel, i.operand ≠ .relative rel) → i.mnemonic ∉ indexReaders ∨ (∀ m, i.operand ≠ .memory m) →
      s.cycles i = baseCycles i) ∧
    2 ≤ s.cycles i ∧ s.cycles i ≤ 7

/-! ## Loads, stores, transfers -/

/-- LDA, LDX and LDY in every mode: the register is the operand, N and Z come from it, PC is at the next instruction, and
nothing else changes (spec/41_load_store_transfer.md R120, R121, R122). -/
def Obligations.Loads : Prop :=
  HasEncodings .lda [(.immediate, 0xA9), (.zeroPage, 0xA5), (.zeroPageX, 0xB5), (.absolute, 0xAD), (.absoluteX, 0xBD),
    (.absoluteY, 0xB9), (.indexedIndirectX, 0xA1), (.indirectIndexedY, 0xB1)] ∧
  HasEncodings .ldx [(.immediate, 0xA2), (.zeroPage, 0xA6), (.zeroPageY, 0xB6), (.absolute, 0xAE), (.absoluteY, 0xBE)] ∧
  HasEncodings .ldy [(.immediate, 0xA0), (.zeroPage, 0xA4), (.zeroPageX, 0xB4), (.absolute, 0xAC), (.absoluteX, 0xBC)] ∧
  ∀ (i : Instr) (src : Source) (s : State), i.operand = src.operand → ¬ s.refusedSource src →
    let m := s.sourceByte src
    (i.mnemonic = .lda → exec i s = .next { s.after i with a := m, p := s.p.fromResult m }) ∧
    (i.mnemonic = .ldx → exec i s = .next { s.after i with x := m, p := s.p.fromResult m }) ∧
    (i.mnemonic = .ldy → exec i s = .next { s.after i with y := m, p := s.p.fromResult m })

/-- STA, STX and STY in every mode: the register is stored at the effective address, PC is at the next instruction, and
nothing else changes (spec/41_load_store_transfer.md R123, R124, R125). -/
def Obligations.Stores : Prop :=
  HasEncodings .sta [(.zeroPage, 0x85), (.zeroPageX, 0x95), (.absolute, 0x8D), (.absoluteX, 0x9D), (.absoluteY, 0x99),
    (.indexedIndirectX, 0x81), (.indirectIndexedY, 0x91)] ∧
  HasEncodings .stx [(.zeroPage, 0x86), (.zeroPageY, 0x96), (.absolute, 0x8E)] ∧
  HasEncodings .sty [(.zeroPage, 0x84), (.zeroPageX, 0x94), (.absolute, 0x8C)] ∧
  ∀ (i : Instr) (m : MemMode) (s : State), s.mem.wf = true → i.operand = .memory m → ¬ s.refusedOperand m →
    let stored (v : Byte) := ∃ t, exec i s = .next t ∧ StoresAt s t (s.ea m) v ∧ { t with mem := s.mem } = s.after i
    (i.mnemonic = .sta → stored s.a) ∧ (i.mnemonic = .stx → stored s.x) ∧ (i.mnemonic = .sty → stored s.y)

/-- TAX, TAY, TSX, TXA, TXS, TYA: the copy, N and Z from it but for TXS, and nothing else
(spec/41_load_store_transfer.md R126 to R131). -/
def Obligations.Transfers : Prop :=
  HasEncodings .tax [(.implied, 0xAA)] ∧ HasEncodings .tay [(.implied, 0xA8)] ∧ HasEncodings .tsx [(.implied, 0xBA)] ∧
  HasEncodings .txa [(.implied, 0x8A)] ∧ HasEncodings .txs [(.implied, 0x9A)] ∧ HasEncodings .tya [(.implied, 0x98)] ∧
  ∀ s : State,
    exec .tax s = .next { s.after .tax with x := s.a, p := s.p.fromResult s.a } ∧
    exec .tay s = .next { s.after .tay with y := s.a, p := s.p.fromResult s.a } ∧
    exec .tsx s = .next { s.after .tsx with x := s.sp, p := s.p.fromResult s.sp } ∧
    exec .txa s = .next { s.after .txa with a := s.x, p := s.p.fromResult s.x } ∧
    exec .txs s = .next { s.after .txs with sp := s.x } ∧
    exec .tya s = .next { s.after .tya with a := s.y, p := s.p.fromResult s.y }

/-! ## Arithmetic and logic -/

/-- ADC in binary mode: the sum modulo 256, C its carry, V whether the signed sum lies outside -128..127, N and Z from
the result, nothing else (spec/42_arithmetic_logic.md R141; the formulas of C and V are the spec's own general knowledge
and decision D8, R140, log entry 14). -/
def Obligations.AddBinaryMode : Prop :=
  HasEncodings .adc [(.immediate, 0x69), (.zeroPage, 0x65), (.zeroPageX, 0x75), (.absolute, 0x6D), (.absoluteX, 0x7D),
    (.absoluteY, 0x79), (.indexedIndirectX, 0x61), (.indirectIndexedY, 0x71)] ∧
  ∀ (i : Instr) (src : Source) (s : State), i.mnemonic = .adc → i.operand = src.operand → ¬ s.refusedSource src →
    s.p.d = false →
    let m := s.sourceByte src
    let t := s.a.toNat + m.toNat + s.p.c.toNat
    let signed := s.a.toInt + m.toInt + s.p.c.toNat
    let r := BitVec.ofNat 8 (t % 256)
    exec i s = .next { s.after i with
      a := r
      p := { s.p.fromResult r with
        c := decide (256 ≤ t), v := decide (signed < -128 ∨ 127 < signed) } }

/-- SBC in binary mode: `A - M - (1 - C)` modulo 256, C whether there was no borrow, V whether the signed difference
lies outside -128..127, N and Z from the result, nothing else (spec/42_arithmetic_logic.md R143; the formulas of C and V
are the spec's own general knowledge and decision D8, R140, log entry 14). -/
def Obligations.SubtractBinaryMode : Prop :=
  HasEncodings .sbc [(.immediate, 0xE9), (.zeroPage, 0xE5), (.zeroPageX, 0xF5), (.absolute, 0xED), (.absoluteX, 0xFD),
    (.absoluteY, 0xF9), (.indexedIndirectX, 0xE1), (.indirectIndexedY, 0xF1)] ∧
  ∀ (i : Instr) (src : Source) (s : State), i.mnemonic = .sbc → i.operand = src.operand → ¬ s.refusedSource src →
    s.p.d = false →
    let m := s.sourceByte src
    let borrow := 1 - s.p.c.toNat
    let signed := s.a.toInt - m.toInt - borrow
    let r := BitVec.ofInt 8 ((s.a.toNat : Int) - m.toNat - borrow)
    exec i s = .next { s.after i with
      a := r
      p := { s.p.fromResult r with
        c := decide (m.toNat + borrow ≤ s.a.toNat), v := decide (signed < -128 ∨ 127 < signed) } }

/-- ADC and SBC in decimal mode under `strict`: with two valid operands A is the exact decimal result and C its carry or
no-borrow, N, V, Z are some bits; otherwise A and the four flags are some values; either way the instruction completes and
nothing else changes (spec/42_arithmetic_logic.md R142; log entries 8 and 13). -/
def Obligations.DecimalModeStrict : Prop :=
  ∀ (i : Instr) (src : Source) (s : State), i.operand = src.operand → ¬ s.refusedSource src →
    s.p.d = true → s.config.decimalPolicy = .strict →
    let m := s.sourceByte src
    let valid := s.a.toNat / 16 ≤ 9 ∧ s.a.toNat % 16 ≤ 9 ∧ m.toNat / 16 ≤ 9 ∧ m.toNat % 16 ≤ 9
    let dec (b : Byte) := 10 * (b.toNat / 16) + b.toNat % 16
    let sum := dec s.a + dec m + s.p.c.toNat
    let difference : Int := dec s.a - dec m - (1 - s.p.c.toNat)
    let gives (r : Byte) (c : Bool) := ∃ n v z, exec i s = .next { s.after i with
      a := r, p := { s.p with n := n, v := v, z := z, c := c } }
    (i.mnemonic = .adc → valid →
      gives (BitVec.ofNat 8 (16 * (sum % 100 / 10) + sum % 10)) (decide (100 ≤ sum))) ∧
    (i.mnemonic = .sbc → valid → ∃ k : Nat, k < 100 ∧ (k : Int) = difference % 100 ∧
      gives (BitVec.ofNat 8 (16 * (k / 10) + k % 10)) (decide (0 ≤ difference))) ∧
    (i.mnemonic ∈ [.adc, .sbc] → ∃ r c, gives r c)

/-- ADC and SBC in decimal mode under `nmos`, on all operands, as the rule's lines have it: the low digit with its
adjustment, N and V from the sum before the high digit's, Z from the binary sum, and SBC's flags as in binary mode
(spec/42_arithmetic_logic.md R142, where these lines are the spec's own general knowledge, log entry 13). -/
def Obligations.DecimalModeNmos : Prop :=
  ∀ (i : Instr) (src : Source) (s : State), i.operand = src.operand → ¬ s.refusedSource src →
    s.p.d = true → s.config.decimalPolicy = .nmos →
    let m := s.sourceByte src
    let a := s.a.toNat
    let c := s.p.c.toNat
    (i.mnemonic = .adc →
      let low := a % 16 + m.toNat % 16 + c
      let al := if 10 ≤ low then (low + 6) % 16 + 16 else low
      let sum := (a - a % 16) + (m.toNat - m.toNat % 16) + al
      let half := BitVec.ofNat 8 sum
      let fixed := if 160 ≤ sum then sum + 96 else sum
      exec i s = .next { s.after i with
        a := BitVec.ofNat 8 fixed
        p := { s.p with
          n := decide (128 ≤ half.toNat), z := decide ((a + m.toNat + c) % 256 = 0), c := decide (256 ≤ fixed)
          v := decide (128 ≤ ((s.a ^^^ half) &&& (m ^^^ half)).toNat) } }) ∧
    (i.mnemonic = .sbc →
      let low : Int := (a % 16 : Nat) - (m.toNat % 16 : Nat) - (1 - c)
      let al : Int := if low < 0 then (low - 6) % 16 - 16 else low
      let diff : Int := (a - a % 16 : Nat) - (m.toNat - m.toNat % 16 : Nat) + al
      let fixed := if diff < 0 then diff - 96 else diff
      let b : Int := a - m.toNat - (1 - c)
      let signed := s.a.toInt - m.toInt - (1 - c)
      exec i s = .next { s.after i with
        a := BitVec.ofInt 8 fixed
        p := { s.p.fromResult (BitVec.ofInt 8 b) with
          c := decide (0 ≤ b), v := decide (signed < -128 ∨ 127 < signed) } })

/-- "It agrees with `strict` on A and C whenever both operands are valid BCD" (spec/42_arithmetic_logic.md R142; log
entry 13). -/
def Obligations.NmosAgreesWithStrict : Prop :=
  ∀ (d : Nat) (a m : Byte) (c : Bool), validBcd a = true → validBcd m = true →
    (addDecimalNmos a m c).r = (addDecimalStrict d a m c).r ∧ (addDecimalNmos a m c).c = (addDecimalStrict d a m c).c ∧
    (subDecimalNmos a m c).r = (subDecimalStrict d a m c).r ∧ (subDecimalNmos a m c).c = (subDecimalStrict d a m c).c

/-- AND, ORA and EOR in every mode: A is the bitwise result, N and Z come from it, nothing else changes
(spec/42_arithmetic_logic.md R145, R146, R147). -/
def Obligations.LogicOperations : Prop :=
  HasEncodings .and [(.immediate, 0x29), (.zeroPage, 0x25), (.zeroPageX, 0x35), (.absolute, 0x2D), (.absoluteX, 0x3D),
    (.absoluteY, 0x39), (.indexedIndirectX, 0x21), (.indirectIndexedY, 0x31)] ∧
  HasEncodings .ora [(.immediate, 0x09), (.zeroPage, 0x05), (.zeroPageX, 0x15), (.absolute, 0x0D), (.absoluteX, 0x1D),
    (.absoluteY, 0x19), (.indexedIndirectX, 0x01), (.indirectIndexedY, 0x11)] ∧
  HasEncodings .eor [(.immediate, 0x49), (.zeroPage, 0x45), (.zeroPageX, 0x55), (.absolute, 0x4D), (.absoluteX, 0x5D),
    (.absoluteY, 0x59), (.indexedIndirectX, 0x41), (.indirectIndexedY, 0x51)] ∧
  ∀ (i : Instr) (src : Source) (s : State), i.operand = src.operand → ¬ s.refusedSource src →
    let m := s.sourceByte src
    let gives (r : Byte) := exec i s = .next { s.after i with a := r, p := s.p.fromResult r }
    (i.mnemonic = .and → gives (s.a &&& m)) ∧ (i.mnemonic = .ora → gives (s.a ||| m)) ∧
      (i.mnemonic = .eor → gives (s.a ^^^ m))

/-- BIT in both modes: Z from `A & M`, N and V from bits 7 and 6 of the memory byte, nothing else
(spec/42_arithmetic_logic.md R148). -/
def Obligations.BitTest : Prop :=
  HasEncodings .bit [(.zeroPage, 0x24), (.absolute, 0x2C)] ∧
  ∀ (i : Instr) (m : MemMode) (s : State), i.mnemonic = .bit → i.operand = .memory m → ¬ s.refusedOperand m →
    let b := s.sourceByte (.memory m)
    exec i s = .next { s.after i with
      p := { s.p with
        z := decide ((s.a &&& b).toNat = 0), n := decide (128 ≤ b.toNat), v := decide (64 ≤ b.toNat % 128) } }

/-- CMP, CPX and CPY in every mode: C is register ≥ operand, Z is equality, N is bit 7 of the difference modulo 256,
nothing else (spec/42_arithmetic_logic.md R149, R150, R151; that D and the old C take no part in CMP is the spec's own
general knowledge, log entry 14). -/
def Obligations.Compares : Prop :=
  HasEncodings .cmp [(.immediate, 0xC9), (.zeroPage, 0xC5), (.zeroPageX, 0xD5), (.absolute, 0xCD), (.absoluteX, 0xDD),
    (.absoluteY, 0xD9), (.indexedIndirectX, 0xC1), (.indirectIndexedY, 0xD1)] ∧
  HasEncodings .cpx [(.immediate, 0xE0), (.zeroPage, 0xE4), (.absolute, 0xEC)] ∧
  HasEncodings .cpy [(.immediate, 0xC0), (.zeroPage, 0xC4), (.absolute, 0xCC)] ∧
  ∀ (i : Instr) (src : Source) (s : State), i.operand = src.operand → ¬ s.refusedSource src →
    let m := s.sourceByte src
    let compares (reg : Byte) := exec i s = .next { s.after i with
      p := { s.p with
        c := decide (m.toNat ≤ reg.toNat), z := decide (reg = m), n := decide (128 ≤ (256 + reg.toNat - m.toNat) % 256) } }
    (i.mnemonic = .cmp → compares s.a) ∧ (i.mnemonic = .cpx → compares s.x) ∧ (i.mnemonic = .cpy → compares s.y)

/-! ## Shifts, rotates, increments -/

/-- What ASL, LSR, ROL and ROR make of a byte and the carry (spec/43_shift_incdec.md R161 to R164), in numbers. -/
def Sys2Proof.Machine.shiftedByte (k : Mnemonic) (m : Byte) (c : Bool) : Byte :=
  BitVec.ofNat 8 (match k with
    | .asl => 2 * m.toNat
    | .lsr => m.toNat / 2
    | .rol => 2 * m.toNat + c.toNat
    | .ror => m.toNat / 2 + 128 * c.toNat
    | _ => m.toNat)

/-- The bit that leaves into C: the old bit 7 to the left, the old bit 0 to the right. -/
def Sys2Proof.Machine.shiftedOut (k : Mnemonic) (m : Byte) : Bool :=
  if k = .asl ∨ k = .rol then decide (128 ≤ m.toNat) else decide (m.toNat % 2 = 1)

/-- ASL, LSR, ROL and ROR on the accumulator and in the four memory modes: the shifted byte goes to A or to the effective
address, C is the bit that left, N and Z come from the result, nothing else changes (spec/43_shift_incdec.md R161 to
R164; that the rotates pass through C is the spec's own general knowledge, R160, log entry 14). -/
def Obligations.ShiftsAndRotates : Prop :=
  HasEncodings .asl [(.accumulator, 0x0A), (.zeroPage, 0x06), (.zeroPageX, 0x16), (.absolute, 0x0E), (.absoluteX, 0x1E)] ∧
  HasEncodings .lsr [(.accumulator, 0x4A), (.zeroPage, 0x46), (.zeroPageX, 0x56), (.absolute, 0x4E), (.absoluteX, 0x5E)] ∧
  HasEncodings .rol [(.accumulator, 0x2A), (.zeroPage, 0x26), (.zeroPageX, 0x36), (.absolute, 0x2E), (.absoluteX, 0x3E)] ∧
  HasEncodings .ror [(.accumulator, 0x6A), (.zeroPage, 0x66), (.zeroPageX, 0x76), (.absolute, 0x6E), (.absoluteX, 0x7E)] ∧
  ∀ (i : Instr) (s : State), i.mnemonic ∈ [.asl, .lsr, .rol, .ror] →
    let r (m : Byte) := shiftedByte i.mnemonic m s.p.c
    let p (m : Byte) := { s.p.fromResult (r m) with c := shiftedOut i.mnemonic m }
    (i.operand = .accumulator → exec i s = .next { s.after i with a := r s.a, p := p s.a }) ∧
    ∀ m : MemMode, i.operand = .memory m → s.mem.wf = true → ¬ s.sideEffectOperand m →
      let b := s.sourceByte (.memory m)
      ∃ t, exec i s = .next t ∧ StoresAt s t (s.ea m) (r b) ∧ { t with mem := s.mem } = { s.after i with p := p b }

/-- "Nine ROLs restore M and C", and so do nine RORs, and a ROR undoes a ROL, every one of them completing
(spec/43_shift_incdec.md R163, R164; that the rotates pass through C is the spec's own general knowledge, R160, log entry
14). -/
def Obligations.NineRotatesRestore : Prop :=
  ∀ s : State,
    (∀ i ∈ [Instr.rolAcc, Instr.rorAcc], ∃ u : Nat → State, u 0 = s ∧ (∀ k < 9, exec i (u k) = .next (u (k + 1))) ∧
      (u 9).a = s.a ∧ (u 9).p.c = s.p.c) ∧
    ∃ t u, exec .rolAcc s = .next t ∧ exec .rorAcc t = .next u ∧ u.a = s.a ∧ u.p.c = s.p.c

/-- INC and DEC in the four memory modes: the byte at the effective address plus or minus one modulo 256, N and Z from the
result, nothing else, not C or V (spec/43_shift_incdec.md R165, R166). -/
def Obligations.IncrementAndDecrementMemory : Prop :=
  HasEncodings .inc [(.zeroPage, 0xE6), (.zeroPageX, 0xF6), (.absolute, 0xEE), (.absoluteX, 0xFE)] ∧
  HasEncodings .dec [(.zeroPage, 0xC6), (.zeroPageX, 0xD6), (.absolute, 0xCE), (.absoluteX, 0xDE)] ∧
  ∀ (i : Instr) (m : MemMode) (s : State), i.operand = .memory m → s.mem.wf = true → ¬ s.sideEffectOperand m →
    let b := s.sourceByte (.memory m)
    let gives (r : Byte) := ∃ t, exec i s = .next t ∧ StoresAt s t (s.ea m) r ∧
      { t with mem := s.mem } = { s.after i with p := s.p.fromResult r }
    (i.mnemonic = .inc → gives (BitVec.ofNat 8 ((b.toNat + 1) % 256))) ∧
      (i.mnemonic = .dec → gives (BitVec.ofNat 8 ((b.toNat + 255) % 256)))

/-- INX, INY, DEX, DEY: the register plus or minus one modulo 256, N and Z from the result, nothing else
(spec/43_shift_incdec.md R167 to R170). -/
def Obligations.IncrementAndDecrementRegisters : Prop :=
  HasEncodings .inx [(.implied, 0xE8)] ∧ HasEncodings .iny [(.implied, 0xC8)] ∧
  HasEncodings .dex [(.implied, 0xCA)] ∧ HasEncodings .dey [(.implied, 0x88)] ∧
  ∀ s : State,
    let up (b : Byte) : Byte := BitVec.ofNat 8 ((b.toNat + 1) % 256)
    let down (b : Byte) : Byte := BitVec.ofNat 8 ((b.toNat + 255) % 256)
    exec .inx s = .next { s.after .inx with x := up s.x, p := s.p.fromResult (up s.x) } ∧
    exec .iny s = .next { s.after .iny with y := up s.y, p := s.p.fromResult (up s.y) } ∧
    exec .dex s = .next { s.after .dex with x := down s.x, p := s.p.fromResult (down s.x) } ∧
    exec .dey s = .next { s.after .dey with y := down s.y, p := s.p.fromResult (down s.y) }

/-! ## Branches, jumps, subroutines -/

/-- The eight branches: to the target where the flag each tests has the value it asks for, else to the next instruction,
and nothing else changes (spec/44_branch_jump.md R181 to R188). -/
def Obligations.Branches : Prop :=
  HasEncodings .bcc [(.relative, 0x90)] ∧ HasEncodings .bcs [(.relative, 0xB0)] ∧ HasEncodings .beq [(.relative, 0xF0)] ∧
  HasEncodings .bmi [(.relative, 0x30)] ∧ HasEncodings .bne [(.relative, 0xD0)] ∧ HasEncodings .bpl [(.relative, 0x10)] ∧
  HasEncodings .bvc [(.relative, 0x50)] ∧ HasEncodings .bvs [(.relative, 0x70)] ∧
  ∀ (s : State) (rel : Byte),
    exec (.bcc rel) s = .next (s.branched rel (decide (s.p.c = false))) ∧
    exec (.bcs rel) s = .next (s.branched rel (decide (s.p.c = true))) ∧
    exec (.beq rel) s = .next (s.branched rel (decide (s.p.z = true))) ∧
    exec (.bmi rel) s = .next (s.branched rel (decide (s.p.n = true))) ∧
    exec (.bne rel) s = .next (s.branched rel (decide (s.p.z = false))) ∧
    exec (.bpl rel) s = .next (s.branched rel (decide (s.p.n = false))) ∧
    exec (.bvc rel) s = .next (s.branched rel (decide (s.p.v = false))) ∧
    exec (.bvs rel) s = .next (s.branched rel (decide (s.p.v = true)))

/-- JMP absolute, and JMP (indirect) for a pointer inside a page and, under each of the spec's three settings, for one
whose low byte is 0xFF (spec/44_branch_jump.md R190; spec/40_addressing_modes.md R112). -/
def Obligations.Jumps : Prop :=
  HasEncodings .jmp [(.absolute, 0x4C), (.absoluteIndirect, 0x6C)] ∧
  ∀ (s : State) (a : Addr),
    let through (high : Addr) := { s with pc := word (s.read .pointerLow a) (s.read .pointerHigh high) }
    let plain (high : Addr) := ¬ s.sideEffectAt a ∧ ¬ s.sideEffectAt high
    exec (.jmpAbs a) s = .next { s with pc := a } ∧
    (a.toNat % 256 ≠ 255 → plain (a + 1) → exec (.jmpInd a) s = .next (through (a + 1))) ∧
    (a.toNat % 256 = 255 →
      (s.config.jmpIndWrap = .refuse → exec (.jmpInd a) s = .refused .jmpIndirectWrap) ∧
      (s.config.jmpIndWrap = .carry → plain (a + 1) → exec (.jmpInd a) s = .next (through (a + 1))) ∧
      (s.config.jmpIndWrap = .noCarry → plain (a - 255) → exec (.jmpInd a) s = .next (through (a - 255))))

/-- Under the model's own setting `either` (DESIGN CHOICE, log entry 9) JMP (indirect) with pointer low byte 0xFF
completes, and does what `carry` or what `noCarry` does (spec/40_addressing_modes.md R112). -/
def Obligations.JumpIndirectEither : Prop :=
  ∀ (s : State) (a : Addr), s.config.jmpIndWrap = .either → a.toNat % 256 = 255 →
    ¬ s.sideEffectAt a → ¬ s.sideEffectAt (a + 1) → ¬ s.sideEffectAt (a - 255) →
    ∃ high, (high = a + 1 ∨ high = a - 255) ∧
      exec (.jmpInd a) s = .next { s with pc := word (s.read .pointerLow a) (s.read .pointerHigh high) }

/-- JSR pushes the address of its third byte, high byte first, and jumps; one whose bytes its pushes write is refused
(spec/44_branch_jump.md R189; what is saved and in which order is the spec's own general knowledge, log entry 14; that
the overlap is judged by the address the platform sees, mirrors on the UM6507 included, is the model's choice, log entry
10). -/
def Obligations.JumpToSubroutine : Prop :=
  HasEncodings .jsr [(.absolute, 0x20)] ∧
  ∀ (s : State) (addr : Addr), s.mem.wf = true →
    (s.underPushes → exec (.jsr addr) s = .refused .jsrOverStack) ∧
    (¬ s.underPushes → ¬ s.refusedPush 2 → ∃ t, exec (.jsr addr) s = .next t ∧
      Pushes s t [hiByte (s.pc + 2), loByte (s.pc + 2)] ∧ { t with sp := s.sp, mem := s.mem } = { s with pc := addr })

/-- RTS pulls the low byte, then the high byte, and adds one (spec/44_branch_jump.md R191, the spec's own general
knowledge, log entry 14). -/
def Obligations.ReturnFromSubroutine : Prop :=
  HasEncodings .rts [(.implied, 0x60)] ∧
  ∀ s : State, ¬ s.refusedPull 2 → exec .rts s = .next { s with
    sp := s.sp + 2
    pc := word (s.read .pulledLow (stackAddr (s.sp + 1))) (s.read .pulledHigh (stackAddr (s.sp + 2))) + 1 }

/-- "It undoes JSR": with the stack in plain memory, JSR and then RTS go to the instruction after the JSR with every
register and flag as before (spec/44_branch_jump.md R191, the spec's own general knowledge, log entry 14). -/
def Obligations.ReturnUndoesJump : Prop :=
  ∀ (s : State) (addr : Addr), s.mem.wf = true → PlainStack s → ¬ s.underPushes →
    ∃ t u, exec (.jsr addr) s = .next t ∧ exec .rts t = .next u ∧ { u with mem := s.mem } = { s with pc := s.pc + 3 }

/-! ## Stack, flags, break -/

/-- PHA pushes A and PHP the image of P with bits 5 and 4 set; nothing else changes (spec/45_stack_flag_system.md R200,
R201; page one and bits 5 and 4 are the spec's own general knowledge, log entry 14). -/
def Obligations.PushInstructions : Prop :=
  HasEncodings .pha [(.implied, 0x48)] ∧ HasEncodings .php [(.implied, 0x08)] ∧
  ∀ s : State, s.mem.wf = true → ¬ s.refusedPush 1 →
    (∃ t, exec .pha s = .next t ∧ Pushes s t [s.a] ∧ { t with sp := s.sp, mem := s.mem } = s.after .pha) ∧
    ∃ t, exec .php s = .next t ∧
      Pushes s t [BitVec.ofNat 8 (128 * s.p.n.toNat + 64 * s.p.v.toNat + 32 + 16 + 8 * s.p.d.toNat + 4 * s.p.i.toNat +
        2 * s.p.z.toNat + s.p.c.toNat)] ∧
      { t with sp := s.sp, mem := s.mem } = s.after .php

/-- PLA pulls A and sets N and Z; PLP pulls the six flags from bits 7, 6, 3, 2, 1, 0 and drops bits 5 and 4; nothing
else changes (spec/45_stack_flag_system.md R202, R203; that the stack is page one is the spec's own general knowledge,
log entry 14). -/
def Obligations.PullInstructions : Prop :=
  HasEncodings .pla [(.implied, 0x68)] ∧ HasEncodings .plp [(.implied, 0x28)] ∧
  ∀ s : State, ¬ s.refusedPull 1 →
    let a := s.read .pulledA (stackAddr (s.sp + 1))
    let v := (s.read .pulledStatus (stackAddr (s.sp + 1))).toNat
    exec .pla s = .next { s.after .pla with sp := s.sp + 1, a := a, p := s.p.fromResult a } ∧
    exec .plp s = .next { s.after .plp with
      sp := s.sp + 1
      p := ⟨decide (v / 128 % 2 = 1), decide (v / 64 % 2 = 1), decide (v / 8 % 2 = 1), decide (v / 4 % 2 = 1),
        decide (v / 2 % 2 = 1), decide (v % 2 = 1)⟩ }

/-- With the stack in plain memory, PHA then PLA gives A back (and N and Z from it) and PHP then PLP gives every flag
back, with S as before (spec/20_memory.md R60, R61; spec/10_state.md R28, R29; page one and bits 5 and 4 of the image
are the spec's own general knowledge and decisions D2, D4, log entry 14). -/
def Obligations.PullUndoesPush : Prop :=
  ∀ s : State, s.mem.wf = true → PlainStack s →
    (∃ t u, exec .pha s = .next t ∧ exec .pla t = .next u ∧
      { u with mem := s.mem } = { s with pc := s.pc + 2, p := s.p.fromResult s.a }) ∧
    ∃ t u, exec .php s = .next t ∧ exec .plp t = .next u ∧ { u with mem := s.mem } = { s with pc := s.pc + 2 }

/-- CLC, CLD, CLI, CLV, SEC, SED, SEI change the one flag they name, and NOP nothing; PC is at the next instruction,
and NOP takes 2 cycles (spec/45_stack_flag_system.md R204 to R211). -/
def Obligations.FlagInstructionsAndNop : Prop :=
  HasEncodings .clc [(.implied, 0x18)] ∧ HasEncodings .cld [(.implied, 0xD8)] ∧ HasEncodings .cli [(.implied, 0x58)] ∧
  HasEncodings .clv [(.implied, 0xB8)] ∧ HasEncodings .sec [(.implied, 0x38)] ∧ HasEncodings .sed [(.implied, 0xF8)] ∧
  HasEncodings .sei [(.implied, 0x78)] ∧ HasEncodings .nop [(.implied, 0xEA)] ∧ baseCycles .nop = 2 ∧
  ∀ s : State,
    exec .clc s = .next { s.after .clc with p := { s.p with c := false } } ∧
    exec .cld s = .next { s.after .cld with p := { s.p with d := false } } ∧
    exec .cli s = .next { s.after .cli with p := { s.p with i := false } } ∧
    exec .clv s = .next { s.after .clv with p := { s.p with v := false } } ∧
    exec .sec s = .next { s.after .sec with p := { s.p with c := true } } ∧
    exec .sed s = .next { s.after .sed with p := { s.p with d := true } } ∧
    exec .sei s = .next { s.after .sei with p := { s.p with i := true } } ∧
    exec .nop s = .next (s.after .nop)

/-- BRK pushes PC + 2 and the image of P with bit 4 = 1, sets I and loads PC from 0xFFFE, whatever I was; nothing else
changes; it is one byte and takes 7 cycles (spec/45_stack_flag_system.md R213; the return address, push order, image
and vector are the spec's own general knowledge, log entry 14). -/
def Obligations.Break : Prop :=
  HasEncodings .brk [(.implied, 0x00)] ∧ Instr.brk.length = 1 ∧ baseCycles .brk = 7 ∧
  ∀ s : State, s.mem.wf = true → ¬ s.refusedPush 3 →
    ∃ t, exec .brk s = .next t ∧ Enters s t (s.pc + 2) true 0xFFFE

/-- RTI pulls the six flags, then the low and the high byte of PC, and adds nothing (spec/45_stack_flag_system.md R214;
the pull order is the spec's own general knowledge, log entry 14). -/
def Obligations.ReturnFromInterrupt : Prop :=
  HasEncodings .rti [(.implied, 0x40)] ∧
  ∀ s : State, ¬ s.refusedPull 3 →
    let v := (s.read .pulledStatus (stackAddr (s.sp + 1))).toNat
    exec .rti s = .next { s with
      sp := s.sp + 3
      p := ⟨decide (v / 128 % 2 = 1), decide (v / 64 % 2 = 1), decide (v / 8 % 2 = 1), decide (v / 4 % 2 = 1),
        decide (v / 2 % 2 = 1), decide (v % 2 = 1)⟩
      pc := word (s.read .pulledLow (stackAddr (s.sp + 2))) (s.read .pulledHigh (stackAddr (s.sp + 3))) }

/-- With the stack in plain memory, RTI right after BRK, NMI or IRQ restores every register and flag, I and D among
them, and goes on at the pushed address: BRK + 2, or the instruction that was next (spec/60_exceptions.md R232, R236;
the spec's own general knowledge and decision D7, log entry 14). -/
def Obligations.ReturnUndoesBreakAndInterrupt : Prop :=
  ∀ s : State, s.mem.wf = true → PlainStack s →
    (∃ t u, exec .brk s = .next t ∧ exec .rti t = .next u ∧ { u with mem := s.mem } = { s with pc := s.pc + 2 }) ∧
    (∃ t u, s.takeNmi = .next t ∧ exec .rti t = .next u ∧
      { u with mem := s.mem } = { s with nmiPending := false, maskLatent := false }) ∧
    ∃ t u, s.takeIrq = .next t ∧ exec .rti t = .next u ∧ { u with mem := s.mem } = { s with maskLatent := false }

/-- Where a device whose accesses have side effects would be reached by an indexed, indirect, read-modify-write or stack
access, the instruction is refused by name, JMP (indirect) under every setting of its parameter, and so is an
interrupt's entry (spec/20_memory.md R59, the spec's own decision D13, log entry 11; the setting `either` is the
model's, log entry 9). -/
def Obligations.SideEffectDevicesAreRefused : Prop :=
  (∀ (s : State) (i : Instr) (m : MemMode), i.operand = .memory m → i.mnemonic ∉ [.jmp, .jsr] → s.refusedOperand m →
    exec i s = .refused .deviceSideEffects) ∧
  (∀ (s : State) (i : Instr) (m : MemMode), i.operand = .memory m →
    i.mnemonic ∈ [.asl, .lsr, .rol, .ror, .inc, .dec] → s.sideEffectOperand m → exec i s = .refused .deviceSideEffects) ∧
  (∀ (s : State) (a : Addr),
    let stops := exec (.jmpInd a) s = .refused .deviceSideEffects
    let goes (high : Addr) :=
      exec (.jmpInd a) s = .next { s with pc := word (s.read .pointerLow a) (s.read .pointerHigh high) }
    (a.toNat % 256 ≠ 255 → s.sideEffectAt a ∨ s.sideEffectAt (a + 1) → stops) ∧
    (a.toNat % 256 = 255 →
      (s.config.jmpIndWrap ≠ .refuse → s.sideEffectAt a → stops) ∧
      (s.config.jmpIndWrap = .carry → s.sideEffectAt (a + 1) → stops) ∧
      (s.config.jmpIndWrap = .noCarry → s.sideEffectAt (a - 255) → stops) ∧
      (s.config.jmpIndWrap = .either → ¬ s.sideEffectAt a →
        (s.sideEffectAt (a + 1) → s.sideEffectAt (a - 255) → stops) ∧
        (s.sideEffectAt (a + 1) → ¬ s.sideEffectAt (a - 255) → stops ∨ goes (a - 255)) ∧
        (¬ s.sideEffectAt (a + 1) → s.sideEffectAt (a - 255) → stops ∨ goes (a + 1))))) ∧
  ∀ (s : State) (addr : Addr),
    (s.refusedPush 1 → exec .pha s = .refused .deviceSideEffects ∧ exec .php s = .refused .deviceSideEffects) ∧
    (s.refusedPull 1 → exec .pla s = .refused .deviceSideEffects ∧ exec .plp s = .refused .deviceSideEffects) ∧
    (s.refusedPush 2 → ¬ s.underPushes → exec (.jsr addr) s = .refused .deviceSideEffects) ∧
    (s.refusedPull 2 → exec .rts s = .refused .deviceSideEffects) ∧
    (s.refusedPush 3 → exec .brk s = .refused .deviceSideEffects ∧ s.takeNmi = .refused .deviceSideEffects ∧
      s.takeIrq = .refused .deviceSideEffects) ∧
    (s.refusedPull 3 → exec .rti s = .refused .deviceSideEffects)
end

