-- ==== Sys2Proof/Laws/Flags.lean ====
section
/-! SUPPORT. The flag computations field by field. -/

namespace Sys2Proof.Machine

section Fields
variable (p : Status) (v : Byte)

@[simp] theorem Status.setNZ_n : (p.setNZ v).n = bit7 v := rfl
@[simp] theorem Status.setNZ_z : (p.setNZ v).z = isZero v := rfl
@[simp] theorem Status.setNZ_v : (p.setNZ v).v = p.v := rfl
@[simp] theorem Status.setNZ_d : (p.setNZ v).d = p.d := rfl
@[simp] theorem Status.setNZ_i : (p.setNZ v).i = p.i := rfl
@[simp] theorem Status.setNZ_c : (p.setNZ v).c = p.c := rfl

@[simp] theorem Status.setAlu_n (u : AluResult) : (p.setAlu u).n = u.n := rfl
@[simp] theorem Status.setAlu_z (u : AluResult) : (p.setAlu u).z = u.z := rfl
@[simp] theorem Status.setAlu_v (u : AluResult) : (p.setAlu u).v = u.v := rfl
@[simp] theorem Status.setAlu_d (u : AluResult) : (p.setAlu u).d = p.d := rfl
@[simp] theorem Status.setAlu_i (u : AluResult) : (p.setAlu u).i = p.i := rfl
@[simp] theorem Status.setAlu_c (u : AluResult) : (p.setAlu u).c = u.c := rfl

@[simp] theorem Status.compare_v (r : Byte) : (p.compare r v).v = p.v := rfl
@[simp] theorem Status.compare_d (r : Byte) : (p.compare r v).d = p.d := rfl
@[simp] theorem Status.compare_i (r : Byte) : (p.compare r v).i = p.i := rfl

@[simp] theorem Status.bitTest_d (r : Byte) : (p.bitTest r v).d = p.d := rfl
@[simp] theorem Status.bitTest_i (r : Byte) : (p.bitTest r v).i = p.i := rfl
@[simp] theorem Status.bitTest_c (r : Byte) : (p.bitTest r v).c = p.c := rfl

end Fields

/-- The sum of binary ADC as a number. -/
theorem addBinary_r_toNat (a m : Byte) (c : Bool) :
    (addBinary a m c).r.toNat = (a.toNat + m.toNat + c.toNat) % 256 := by
  simp [addBinary]

/-- The complement as a number (spec/00_scope.md R12). -/
theorem complement_toNat (m : Byte) : (~~~m).toNat = 255 - m.toNat := by
  simp [BitVec.toNat_not]

/-- A sign bit is being at least 128. -/
theorem bit7_eq (b : Byte) : bit7 b = decide (128 ≤ b.toNat) := by
  have h := BitVec.msb_eq_decide b
  simp only [BitVec.msb_eq_getLsbD_last] at h
  simpa [bit7] using h

/-- Being zero as a number. -/
theorem isZero_eq (b : Byte) : isZero b = decide (b.toNat = 0) := by
  rw [Bool.eq_iff_iff]
  simp only [isZero, beq_iff_eq, decide_eq_true_eq]
  exact BitVec.toNat_eq

/-- Bit 7 of an exclusive OR. -/
theorem bit7_xor (a b : Byte) : bit7 (a ^^^ b) = (bit7 a != bit7 b) := by
  simp [bit7]

/-- Bit 7 of an AND. -/
theorem bit7_and (a b : Byte) : bit7 (a &&& b) = (bit7 a && bit7 b) := by
  simp [bit7]

end Sys2Proof.Machine
end

