-- ==== Sys2Proof/Laws/Memory.lean ====
section
/-! SUPPORT. The laws of memory: read after write, and every operation keeps the canonical form. -/

namespace Sys2Proof.Machine

@[simp] theorem Memory.get_nil (a : Nat) : Memory.get [] a = unlistedByte := rfl

@[simp] theorem Memory.wf_nil : Memory.wf [] = true := rfl

@[simp] theorem Memory.within_nil (n : Nat) : Memory.within n [] = true := rfl

theorem Memory.wf_cons_iff (a : Nat) (v : Byte) (m : Memory) :
    Memory.wf ((a, v) :: m) = true ↔ Memory.above a m = true ∧ v ≠ unlistedByte ∧ Memory.wf m = true := by
  simp [Memory.wf, and_assoc]

theorem Memory.above_cons_iff (a b : Nat) (v : Byte) (m : Memory) :
    Memory.above a ((b, v) :: m) = true ↔ a < b ∧ Memory.above a m = true := by
  simp [Memory.above]

/-- An address below every listed one reads as unlisted. -/
theorem Memory.get_of_above {a : Nat} : ∀ {m : Memory}, Memory.above a m = true → m.get a = unlistedByte
  | [], _ => rfl
  | (b, w) :: rest, h => by
    obtain ⟨hb, hr⟩ := (Memory.above_cons_iff a b w rest).1 h
    rw [Memory.get, if_neg (by omega)]
    exact Memory.get_of_above hr

/-- Being below every listed address passes to smaller addresses. -/
theorem Memory.above_mono {a b : Nat} (hab : a ≤ b) : ∀ {m : Memory}, Memory.above b m = true → Memory.above a m = true
  | [], _ => rfl
  | (c, w) :: rest, h => by
    obtain ⟨hc, hr⟩ := (Memory.above_cons_iff b c w rest).1 h
    exact (Memory.above_cons_iff a c w rest).2 ⟨by omega, Memory.above_mono hab hr⟩

/-- `cons` on cells of higher addresses: the read. -/
theorem Memory.get_cons (a b : Nat) (v : Byte) {m : Memory} (h : Memory.above a m = true) :
    (Memory.cons a v m).get b = if a = b then v else m.get b := by
  unfold Memory.cons
  split
  · rename_i hv
    split
    · rename_i hab
      rw [← hab, Memory.get_of_above h, hv]
    · rfl
  · rw [Memory.get]
    simp only [eq_comm]

/-- `cons` on cells of higher addresses keeps the canonical form. -/
theorem Memory.wf_cons {a : Nat} (v : Byte) {m : Memory} (h : Memory.above a m = true) (hm : m.wf = true) :
    (Memory.cons a v m).wf = true := by
  unfold Memory.cons
  split
  · exact hm
  · rename_i hv
    exact (Memory.wf_cons_iff a v m).2 ⟨h, hv, hm⟩

theorem Memory.above_cons {c a : Nat} (v : Byte) {m : Memory} (hca : c < a) (h : Memory.above c m = true) :
    Memory.above c (Memory.cons a v m) = true := by
  unfold Memory.cons
  split
  · exact h
  · exact (Memory.above_cons_iff c a v m).2 ⟨hca, h⟩

theorem Memory.above_set {c a : Nat} (v : Byte) (hca : c < a) :
    ∀ {m : Memory}, Memory.above c m = true → Memory.above c (m.set a v) = true
  | [], h => Memory.above_cons v hca h
  | (b, w) :: rest, h => by
    obtain ⟨hcb, hr⟩ := (Memory.above_cons_iff c b w rest).1 h
    unfold Memory.set
    split
    · exact Memory.above_cons v hca h
    · split
      · exact Memory.above_cons v hca hr
      · exact (Memory.above_cons_iff c b w _).2 ⟨hcb, Memory.above_set v hca hr⟩

/-- A store keeps the canonical form. -/
theorem Memory.wf_set (a : Nat) (v : Byte) : ∀ {m : Memory}, m.wf = true → (m.set a v).wf = true
  | [], h => Memory.wf_cons v rfl h
  | (b, w) :: rest, h => by
    obtain ⟨hb, hw, hr⟩ := (Memory.wf_cons_iff b w rest).1 h
    unfold Memory.set
    split
    · rename_i hab
      exact Memory.wf_cons v ((Memory.above_cons_iff a b w rest).2 ⟨hab, Memory.above_mono (by omega) hb⟩) h
    · split
      · rename_i hab
        exact Memory.wf_cons v (hab ▸ hb) hr
      · exact (Memory.wf_cons_iff b w _).2 ⟨Memory.above_set v (by omega) hb, hw, Memory.wf_set a v hr⟩

/-- Reading after a store: the stored byte at its address, the old byte elsewhere. -/
theorem Memory.get_set (a : Nat) (v : Byte) (b : Nat) :
    ∀ {m : Memory}, m.wf = true → (m.set a v).get b = if a = b then v else m.get b
  | [], _ => Memory.get_cons a b v rfl
  | (c, w) :: rest, h => by
    obtain ⟨hc, hw, hr⟩ := (Memory.wf_cons_iff c w rest).1 h
    unfold Memory.set
    split
    · rename_i hac
      exact Memory.get_cons a b v ((Memory.above_cons_iff a c w rest).2 ⟨hac, Memory.above_mono (by omega) hc⟩)
    · split
      · rename_i hac
        rw [Memory.get_cons a b v (hac ▸ hc), Memory.get]
        by_cases hab : a = b
        · simp [hab]
        · rw [if_neg hab, if_neg hab, if_neg (by omega)]
      · rw [Memory.get, Memory.get, Memory.get_set a v b hr]
        by_cases hbc : b = c
        · rw [if_pos hbc, if_pos hbc, if_neg (by omega)]
        · rw [if_neg hbc, if_neg hbc]

theorem Memory.within_cons_iff (n a : Nat) (v : Byte) (m : Memory) :
    Memory.within n ((a, v) :: m) = true ↔ a < n ∧ Memory.within n m = true := by
  simp [Memory.within]

theorem Memory.within_cons (n a : Nat) (v : Byte) {m : Memory} (ha : a < n) (hm : m.within n = true) :
    (Memory.cons a v m).within n = true := by
  unfold Memory.cons
  split
  · exact hm
  · exact (Memory.within_cons_iff n a v m).2 ⟨ha, hm⟩

/-- A store inside the space keeps the memory inside it. -/
theorem Memory.within_set (n a : Nat) (v : Byte) (ha : a < n) :
    ∀ {m : Memory}, m.within n = true → (m.set a v).within n = true
  | [], h => Memory.within_cons n a v ha h
  | (b, w) :: rest, h => by
    obtain ⟨hb, hr⟩ := (Memory.within_cons_iff n b w rest).1 h
    unfold Memory.set
    split
    · exact Memory.within_cons n a v ha h
    · split
      · exact Memory.within_cons n a v ha hr
      · exact (Memory.within_cons_iff n b w _).2 ⟨hb, Memory.within_set n a v ha hr⟩

end Sys2Proof.Machine
end

