-- ==== Sys2Proof/Laws/State.lean ====
section
/-! SUPPORT. What each update of the state leaves in each field: true by definition, so that no proof unfolds an update. -/

namespace Sys2Proof.Machine

section Setters
variable (s : State)

@[simp] theorem State.setA_a (v : Byte) : (s.setA v).a = v := rfl
@[simp] theorem State.setA_x (v : Byte) : (s.setA v).x = s.x := rfl
@[simp] theorem State.setA_y (v : Byte) : (s.setA v).y = s.y := rfl
@[simp] theorem State.setA_sp (v : Byte) : (s.setA v).sp = s.sp := rfl
@[simp] theorem State.setA_pc (v : Byte) : (s.setA v).pc = s.pc := rfl
@[simp] theorem State.setA_p (v : Byte) : (s.setA v).p = s.p := rfl
@[simp] theorem State.setA_mem (v : Byte) : (s.setA v).mem = s.mem := rfl
@[simp] theorem State.setA_resLine (v : Byte) : (s.setA v).resLine = s.resLine := rfl
@[simp] theorem State.setA_rdyLine (v : Byte) : (s.setA v).rdyLine = s.rdyLine := rfl
@[simp] theorem State.setA_irqLine (v : Byte) : (s.setA v).irqLine = s.irqLine := rfl
@[simp] theorem State.setA_nmiPending (v : Byte) : (s.setA v).nmiPending = s.nmiPending := rfl
@[simp] theorem State.setA_soEdge (v : Byte) : (s.setA v).soEdge = s.soEdge := rfl
@[simp] theorem State.setA_soLate (v : Byte) : (s.setA v).soLate = s.soLate := rfl
@[simp] theorem State.setA_inReset (v : Byte) : (s.setA v).inReset = s.inReset := rfl
@[simp] theorem State.setA_iBefore (v : Byte) : (s.setA v).iBefore = s.iBefore := rfl
@[simp] theorem State.setA_maskLatent (v : Byte) : (s.setA v).maskLatent = s.maskLatent := rfl
@[simp] theorem State.setA_dmaReads (v : Byte) : (s.setA v).dmaReads = s.dmaReads := rfl
@[simp] theorem State.setA_inputs (v : Byte) : (s.setA v).inputs = s.inputs := rfl
@[simp] theorem State.setA_draws (v : Byte) : (s.setA v).draws = s.draws := rfl
@[simp] theorem State.setA_config (v : Byte) : (s.setA v).config = s.config := rfl

@[simp] theorem State.setX_a (v : Byte) : (s.setX v).a = s.a := rfl
@[simp] theorem State.setX_x (v : Byte) : (s.setX v).x = v := rfl
@[simp] theorem State.setX_y (v : Byte) : (s.setX v).y = s.y := rfl
@[simp] theorem State.setX_sp (v : Byte) : (s.setX v).sp = s.sp := rfl
@[simp] theorem State.setX_pc (v : Byte) : (s.setX v).pc = s.pc := rfl
@[simp] theorem State.setX_p (v : Byte) : (s.setX v).p = s.p := rfl
@[simp] theorem State.setX_mem (v : Byte) : (s.setX v).mem = s.mem := rfl
@[simp] theorem State.setX_resLine (v : Byte) : (s.setX v).resLine = s.resLine := rfl
@[simp] theorem State.setX_rdyLine (v : Byte) : (s.setX v).rdyLine = s.rdyLine := rfl
@[simp] theorem State.setX_irqLine (v : Byte) : (s.setX v).irqLine = s.irqLine := rfl
@[simp] theorem State.setX_nmiPending (v : Byte) : (s.setX v).nmiPending = s.nmiPending := rfl
@[simp] theorem State.setX_soEdge (v : Byte) : (s.setX v).soEdge = s.soEdge := rfl
@[simp] theorem State.setX_soLate (v : Byte) : (s.setX v).soLate = s.soLate := rfl
@[simp] theorem State.setX_inReset (v : Byte) : (s.setX v).inReset = s.inReset := rfl
@[simp] theorem State.setX_iBefore (v : Byte) : (s.setX v).iBefore = s.iBefore := rfl
@[simp] theorem State.setX_maskLatent (v : Byte) : (s.setX v).maskLatent = s.maskLatent := rfl
@[simp] theorem State.setX_dmaReads (v : Byte) : (s.setX v).dmaReads = s.dmaReads := rfl
@[simp] theorem State.setX_inputs (v : Byte) : (s.setX v).inputs = s.inputs := rfl
@[simp] theorem State.setX_draws (v : Byte) : (s.setX v).draws = s.draws := rfl
@[simp] theorem State.setX_config (v : Byte) : (s.setX v).config = s.config := rfl

@[simp] theorem State.setY_a (v : Byte) : (s.setY v).a = s.a := rfl
@[simp] theorem State.setY_x (v : Byte) : (s.setY v).x = s.x := rfl
@[simp] theorem State.setY_y (v : Byte) : (s.setY v).y = v := rfl
@[simp] theorem State.setY_sp (v : Byte) : (s.setY v).sp = s.sp := rfl
@[simp] theorem State.setY_pc (v : Byte) : (s.setY v).pc = s.pc := rfl
@[simp] theorem State.setY_p (v : Byte) : (s.setY v).p = s.p := rfl
@[simp] theorem State.setY_mem (v : Byte) : (s.setY v).mem = s.mem := rfl
@[simp] theorem State.setY_resLine (v : Byte) : (s.setY v).resLine = s.resLine := rfl
@[simp] theorem State.setY_rdyLine (v : Byte) : (s.setY v).rdyLine = s.rdyLine := rfl
@[simp] theorem State.setY_irqLine (v : Byte) : (s.setY v).irqLine = s.irqLine := rfl
@[simp] theorem State.setY_nmiPending (v : Byte) : (s.setY v).nmiPending = s.nmiPending := rfl
@[simp] theorem State.setY_soEdge (v : Byte) : (s.setY v).soEdge = s.soEdge := rfl
@[simp] theorem State.setY_soLate (v : Byte) : (s.setY v).soLate = s.soLate := rfl
@[simp] theorem State.setY_inReset (v : Byte) : (s.setY v).inReset = s.inReset := rfl
@[simp] theorem State.setY_iBefore (v : Byte) : (s.setY v).iBefore = s.iBefore := rfl
@[simp] theorem State.setY_maskLatent (v : Byte) : (s.setY v).maskLatent = s.maskLatent := rfl
@[simp] theorem State.setY_dmaReads (v : Byte) : (s.setY v).dmaReads = s.dmaReads := rfl
@[simp] theorem State.setY_inputs (v : Byte) : (s.setY v).inputs = s.inputs := rfl
@[simp] theorem State.setY_draws (v : Byte) : (s.setY v).draws = s.draws := rfl
@[simp] theorem State.setY_config (v : Byte) : (s.setY v).config = s.config := rfl

@[simp] theorem State.setSp_a (v : Byte) : (s.setSp v).a = s.a := rfl
@[simp] theorem State.setSp_x (v : Byte) : (s.setSp v).x = s.x := rfl
@[simp] theorem State.setSp_y (v : Byte) : (s.setSp v).y = s.y := rfl
@[simp] theorem State.setSp_sp (v : Byte) : (s.setSp v).sp = v := rfl
@[simp] theorem State.setSp_pc (v : Byte) : (s.setSp v).pc = s.pc := rfl
@[simp] theorem State.setSp_p (v : Byte) : (s.setSp v).p = s.p := rfl
@[simp] theorem State.setSp_mem (v : Byte) : (s.setSp v).mem = s.mem := rfl
@[simp] theorem State.setSp_resLine (v : Byte) : (s.setSp v).resLine = s.resLine := rfl
@[simp] theorem State.setSp_rdyLine (v : Byte) : (s.setSp v).rdyLine = s.rdyLine := rfl
@[simp] theorem State.setSp_irqLine (v : Byte) : (s.setSp v).irqLine = s.irqLine := rfl
@[simp] theorem State.setSp_nmiPending (v : Byte) : (s.setSp v).nmiPending = s.nmiPending := rfl
@[simp] theorem State.setSp_soEdge (v : Byte) : (s.setSp v).soEdge = s.soEdge := rfl
@[simp] theorem State.setSp_soLate (v : Byte) : (s.setSp v).soLate = s.soLate := rfl
@[simp] theorem State.setSp_inReset (v : Byte) : (s.setSp v).inReset = s.inReset := rfl
@[simp] theorem State.setSp_iBefore (v : Byte) : (s.setSp v).iBefore = s.iBefore := rfl
@[simp] theorem State.setSp_maskLatent (v : Byte) : (s.setSp v).maskLatent = s.maskLatent := rfl
@[simp] theorem State.setSp_dmaReads (v : Byte) : (s.setSp v).dmaReads = s.dmaReads := rfl
@[simp] theorem State.setSp_inputs (v : Byte) : (s.setSp v).inputs = s.inputs := rfl
@[simp] theorem State.setSp_draws (v : Byte) : (s.setSp v).draws = s.draws := rfl
@[simp] theorem State.setSp_config (v : Byte) : (s.setSp v).config = s.config := rfl

@[simp] theorem State.setPc_a (v : Addr) : (s.setPc v).a = s.a := rfl
@[simp] theorem State.setPc_x (v : Addr) : (s.setPc v).x = s.x := rfl
@[simp] theorem State.setPc_y (v : Addr) : (s.setPc v).y = s.y := rfl
@[simp] theorem State.setPc_sp (v : Addr) : (s.setPc v).sp = s.sp := rfl
@[simp] theorem State.setPc_pc (v : Addr) : (s.setPc v).pc = v := rfl
@[simp] theorem State.setPc_p (v : Addr) : (s.setPc v).p = s.p := rfl
@[simp] theorem State.setPc_mem (v : Addr) : (s.setPc v).mem = s.mem := rfl
@[simp] theorem State.setPc_resLine (v : Addr) : (s.setPc v).resLine = s.resLine := rfl
@[simp] theorem State.setPc_rdyLine (v : Addr) : (s.setPc v).rdyLine = s.rdyLine := rfl
@[simp] theorem State.setPc_irqLine (v : Addr) : (s.setPc v).irqLine = s.irqLine := rfl
@[simp] theorem State.setPc_nmiPending (v : Addr) : (s.setPc v).nmiPending = s.nmiPending := rfl
@[simp] theorem State.setPc_soEdge (v : Addr) : (s.setPc v).soEdge = s.soEdge := rfl
@[simp] theorem State.setPc_soLate (v : Addr) : (s.setPc v).soLate = s.soLate := rfl
@[simp] theorem State.setPc_inReset (v : Addr) : (s.setPc v).inReset = s.inReset := rfl
@[simp] theorem State.setPc_iBefore (v : Addr) : (s.setPc v).iBefore = s.iBefore := rfl
@[simp] theorem State.setPc_maskLatent (v : Addr) : (s.setPc v).maskLatent = s.maskLatent := rfl
@[simp] theorem State.setPc_dmaReads (v : Addr) : (s.setPc v).dmaReads = s.dmaReads := rfl
@[simp] theorem State.setPc_inputs (v : Addr) : (s.setPc v).inputs = s.inputs := rfl
@[simp] theorem State.setPc_draws (v : Addr) : (s.setPc v).draws = s.draws := rfl
@[simp] theorem State.setPc_config (v : Addr) : (s.setPc v).config = s.config := rfl

@[simp] theorem State.setP_a (q : Status) : (s.setP q).a = s.a := rfl
@[simp] theorem State.setP_x (q : Status) : (s.setP q).x = s.x := rfl
@[simp] theorem State.setP_y (q : Status) : (s.setP q).y = s.y := rfl
@[simp] theorem State.setP_sp (q : Status) : (s.setP q).sp = s.sp := rfl
@[simp] theorem State.setP_pc (q : Status) : (s.setP q).pc = s.pc := rfl
@[simp] theorem State.setP_p (q : Status) : (s.setP q).p = q := rfl
@[simp] theorem State.setP_mem (q : Status) : (s.setP q).mem = s.mem := rfl
@[simp] theorem State.setP_resLine (q : Status) : (s.setP q).resLine = s.resLine := rfl
@[simp] theorem State.setP_rdyLine (q : Status) : (s.setP q).rdyLine = s.rdyLine := rfl
@[simp] theorem State.setP_irqLine (q : Status) : (s.setP q).irqLine = s.irqLine := rfl
@[simp] theorem State.setP_nmiPending (q : Status) : (s.setP q).nmiPending = s.nmiPending := rfl
@[simp] theorem State.setP_soEdge (q : Status) : (s.setP q).soEdge = s.soEdge := rfl
@[simp] theorem State.setP_soLate (q : Status) : (s.setP q).soLate = s.soLate := rfl
@[simp] theorem State.setP_inReset (q : Status) : (s.setP q).inReset = s.inReset := rfl
@[simp] theorem State.setP_iBefore (q : Status) : (s.setP q).iBefore = s.iBefore := rfl
@[simp] theorem State.setP_maskLatent (q : Status) : (s.setP q).maskLatent = s.maskLatent := rfl
@[simp] theorem State.setP_dmaReads (q : Status) : (s.setP q).dmaReads = s.dmaReads := rfl
@[simp] theorem State.setP_inputs (q : Status) : (s.setP q).inputs = s.inputs := rfl
@[simp] theorem State.setP_draws (q : Status) : (s.setP q).draws = s.draws := rfl
@[simp] theorem State.setP_config (q : Status) : (s.setP q).config = s.config := rfl

@[simp] theorem State.setNZ_a (v : Byte) : (s.setNZ v).a = s.a := rfl
@[simp] theorem State.setNZ_x (v : Byte) : (s.setNZ v).x = s.x := rfl
@[simp] theorem State.setNZ_y (v : Byte) : (s.setNZ v).y = s.y := rfl
@[simp] theorem State.setNZ_sp (v : Byte) : (s.setNZ v).sp = s.sp := rfl
@[simp] theorem State.setNZ_pc (v : Byte) : (s.setNZ v).pc = s.pc := rfl
@[simp] theorem State.setNZ_p (v : Byte) : (s.setNZ v).p = s.p.setNZ v := rfl
@[simp] theorem State.setNZ_mem (v : Byte) : (s.setNZ v).mem = s.mem := rfl
@[simp] theorem State.setNZ_resLine (v : Byte) : (s.setNZ v).resLine = s.resLine := rfl
@[simp] theorem State.setNZ_rdyLine (v : Byte) : (s.setNZ v).rdyLine = s.rdyLine := rfl
@[simp] theorem State.setNZ_irqLine (v : Byte) : (s.setNZ v).irqLine = s.irqLine := rfl
@[simp] theorem State.setNZ_nmiPending (v : Byte) : (s.setNZ v).nmiPending = s.nmiPending := rfl
@[simp] theorem State.setNZ_soEdge (v : Byte) : (s.setNZ v).soEdge = s.soEdge := rfl
@[simp] theorem State.setNZ_soLate (v : Byte) : (s.setNZ v).soLate = s.soLate := rfl
@[simp] theorem State.setNZ_inReset (v : Byte) : (s.setNZ v).inReset = s.inReset := rfl
@[simp] theorem State.setNZ_iBefore (v : Byte) : (s.setNZ v).iBefore = s.iBefore := rfl
@[simp] theorem State.setNZ_maskLatent (v : Byte) : (s.setNZ v).maskLatent = s.maskLatent := rfl
@[simp] theorem State.setNZ_dmaReads (v : Byte) : (s.setNZ v).dmaReads = s.dmaReads := rfl
@[simp] theorem State.setNZ_inputs (v : Byte) : (s.setNZ v).inputs = s.inputs := rfl
@[simp] theorem State.setNZ_draws (v : Byte) : (s.setNZ v).draws = s.draws := rfl
@[simp] theorem State.setNZ_config (v : Byte) : (s.setNZ v).config = s.config := rfl

@[simp] theorem State.advance_a (n : Nat) : (s.advance n).a = s.a := rfl
@[simp] theorem State.advance_x (n : Nat) : (s.advance n).x = s.x := rfl
@[simp] theorem State.advance_y (n : Nat) : (s.advance n).y = s.y := rfl
@[simp] theorem State.advance_sp (n : Nat) : (s.advance n).sp = s.sp := rfl
@[simp] theorem State.advance_pc (n : Nat) : (s.advance n).pc = s.pc + BitVec.ofNat 16 n := rfl
@[simp] theorem State.advance_p (n : Nat) : (s.advance n).p = s.p := rfl
@[simp] theorem State.advance_mem (n : Nat) : (s.advance n).mem = s.mem := rfl
@[simp] theorem State.advance_resLine (n : Nat) : (s.advance n).resLine = s.resLine := rfl
@[simp] theorem State.advance_rdyLine (n : Nat) : (s.advance n).rdyLine = s.rdyLine := rfl
@[simp] theorem State.advance_irqLine (n : Nat) : (s.advance n).irqLine = s.irqLine := rfl
@[simp] theorem State.advance_nmiPending (n : Nat) : (s.advance n).nmiPending = s.nmiPending := rfl
@[simp] theorem State.advance_soEdge (n : Nat) : (s.advance n).soEdge = s.soEdge := rfl
@[simp] theorem State.advance_soLate (n : Nat) : (s.advance n).soLate = s.soLate := rfl
@[simp] theorem State.advance_inReset (n : Nat) : (s.advance n).inReset = s.inReset := rfl
@[simp] theorem State.advance_iBefore (n : Nat) : (s.advance n).iBefore = s.iBefore := rfl
@[simp] theorem State.advance_maskLatent (n : Nat) : (s.advance n).maskLatent = s.maskLatent := rfl
@[simp] theorem State.advance_dmaReads (n : Nat) : (s.advance n).dmaReads = s.dmaReads := rfl
@[simp] theorem State.advance_inputs (n : Nat) : (s.advance n).inputs = s.inputs := rfl
@[simp] theorem State.advance_draws (n : Nat) : (s.advance n).draws = s.draws := rfl
@[simp] theorem State.advance_config (n : Nat) : (s.advance n).config = s.config := rfl

@[simp] theorem State.drop_a (n : Nat) : (s.drop n).a = s.a := rfl
@[simp] theorem State.drop_x (n : Nat) : (s.drop n).x = s.x := rfl
@[simp] theorem State.drop_y (n : Nat) : (s.drop n).y = s.y := rfl
@[simp] theorem State.drop_sp (n : Nat) : (s.drop n).sp = s.sp + BitVec.ofNat 8 n := rfl
@[simp] theorem State.drop_pc (n : Nat) : (s.drop n).pc = s.pc := rfl
@[simp] theorem State.drop_p (n : Nat) : (s.drop n).p = s.p := rfl
@[simp] theorem State.drop_mem (n : Nat) : (s.drop n).mem = s.mem := rfl
@[simp] theorem State.drop_resLine (n : Nat) : (s.drop n).resLine = s.resLine := rfl
@[simp] theorem State.drop_rdyLine (n : Nat) : (s.drop n).rdyLine = s.rdyLine := rfl
@[simp] theorem State.drop_irqLine (n : Nat) : (s.drop n).irqLine = s.irqLine := rfl
@[simp] theorem State.drop_nmiPending (n : Nat) : (s.drop n).nmiPending = s.nmiPending := rfl
@[simp] theorem State.drop_soEdge (n : Nat) : (s.drop n).soEdge = s.soEdge := rfl
@[simp] theorem State.drop_soLate (n : Nat) : (s.drop n).soLate = s.soLate := rfl
@[simp] theorem State.drop_inReset (n : Nat) : (s.drop n).inReset = s.inReset := rfl
@[simp] theorem State.drop_iBefore (n : Nat) : (s.drop n).iBefore = s.iBefore := rfl
@[simp] theorem State.drop_maskLatent (n : Nat) : (s.drop n).maskLatent = s.maskLatent := rfl
@[simp] theorem State.drop_dmaReads (n : Nat) : (s.drop n).dmaReads = s.dmaReads := rfl
@[simp] theorem State.drop_inputs (n : Nat) : (s.drop n).inputs = s.inputs := rfl
@[simp] theorem State.drop_draws (n : Nat) : (s.drop n).draws = s.draws := rfl
@[simp] theorem State.drop_config (n : Nat) : (s.drop n).config = s.config := rfl

@[simp] theorem State.maskIrq_a : s.maskIrq.a = s.a := rfl
@[simp] theorem State.maskIrq_x : s.maskIrq.x = s.x := rfl
@[simp] theorem State.maskIrq_y : s.maskIrq.y = s.y := rfl
@[simp] theorem State.maskIrq_sp : s.maskIrq.sp = s.sp := rfl
@[simp] theorem State.maskIrq_pc : s.maskIrq.pc = s.pc := rfl
@[simp] theorem State.maskIrq_p : s.maskIrq.p = { s.p with i := true } := rfl
@[simp] theorem State.maskIrq_mem : s.maskIrq.mem = s.mem := rfl
@[simp] theorem State.maskIrq_resLine : s.maskIrq.resLine = s.resLine := rfl
@[simp] theorem State.maskIrq_rdyLine : s.maskIrq.rdyLine = s.rdyLine := rfl
@[simp] theorem State.maskIrq_irqLine : s.maskIrq.irqLine = s.irqLine := rfl
@[simp] theorem State.maskIrq_nmiPending : s.maskIrq.nmiPending = s.nmiPending := rfl
@[simp] theorem State.maskIrq_soEdge : s.maskIrq.soEdge = s.soEdge := rfl
@[simp] theorem State.maskIrq_soLate : s.maskIrq.soLate = s.soLate := rfl
@[simp] theorem State.maskIrq_inReset : s.maskIrq.inReset = s.inReset := rfl
@[simp] theorem State.maskIrq_iBefore : s.maskIrq.iBefore = s.iBefore := rfl
@[simp] theorem State.maskIrq_maskLatent : s.maskIrq.maskLatent = s.maskLatent := rfl
@[simp] theorem State.maskIrq_dmaReads : s.maskIrq.dmaReads = s.dmaReads := rfl
@[simp] theorem State.maskIrq_inputs : s.maskIrq.inputs = s.inputs := rfl
@[simp] theorem State.maskIrq_draws : s.maskIrq.draws = s.draws := rfl
@[simp] theorem State.maskIrq_config : s.maskIrq.config = s.config := rfl

@[simp] theorem State.begin_a (i : Instr) : (s.begin i).a = s.a := rfl
@[simp] theorem State.begin_x (i : Instr) : (s.begin i).x = s.x := rfl
@[simp] theorem State.begin_y (i : Instr) : (s.begin i).y = s.y := rfl
@[simp] theorem State.begin_sp (i : Instr) : (s.begin i).sp = s.sp := rfl
@[simp] theorem State.begin_pc (i : Instr) : (s.begin i).pc = s.pc := rfl
@[simp] theorem State.begin_p (i : Instr) : (s.begin i).p = s.p := rfl
@[simp] theorem State.begin_mem (i : Instr) : (s.begin i).mem = s.mem := rfl
@[simp] theorem State.begin_resLine (i : Instr) : (s.begin i).resLine = s.resLine := rfl
@[simp] theorem State.begin_rdyLine (i : Instr) : (s.begin i).rdyLine = s.rdyLine := rfl
@[simp] theorem State.begin_irqLine (i : Instr) : (s.begin i).irqLine = s.irqLine := rfl
@[simp] theorem State.begin_nmiPending (i : Instr) : (s.begin i).nmiPending = s.nmiPending := rfl
@[simp] theorem State.begin_soEdge (i : Instr) : (s.begin i).soEdge = s.soEdge := rfl
@[simp] theorem State.begin_soLate (i : Instr) : (s.begin i).soLate = s.soLate := rfl
@[simp] theorem State.begin_inReset (i : Instr) : (s.begin i).inReset = s.inReset := rfl
@[simp] theorem State.begin_iBefore (i : Instr) : (s.begin i).iBefore = s.p.i := rfl
@[simp] theorem State.begin_maskLatent (i : Instr) : (s.begin i).maskLatent = masksLate i := rfl
@[simp] theorem State.begin_dmaReads (i : Instr) : (s.begin i).dmaReads = s.dmaReads := rfl
@[simp] theorem State.begin_inputs (i : Instr) : (s.begin i).inputs = s.inputs := rfl
@[simp] theorem State.begin_draws (i : Instr) : (s.begin i).draws = s.draws := rfl
@[simp] theorem State.begin_config (i : Instr) : (s.begin i).config = s.config := rfl

end Setters

section Writes
variable (s : State)

/-- A store changes memory only, and memory only where the address is ram. -/
theorem State.write_eq (a : Addr) (v : Byte) :
    s.write a v = { s with mem := if s.kindAt a = .ram then s.mem.set (s.phys a) v else s.mem } := by
  unfold State.write
  split <;> simp_all

@[simp] theorem State.write_a (a : Addr) (v : Byte) : (s.write a v).a = s.a := by rw [State.write_eq]
@[simp] theorem State.write_x (a : Addr) (v : Byte) : (s.write a v).x = s.x := by rw [State.write_eq]
@[simp] theorem State.write_y (a : Addr) (v : Byte) : (s.write a v).y = s.y := by rw [State.write_eq]
@[simp] theorem State.write_sp (a : Addr) (v : Byte) : (s.write a v).sp = s.sp := by rw [State.write_eq]
@[simp] theorem State.write_pc (a : Addr) (v : Byte) : (s.write a v).pc = s.pc := by rw [State.write_eq]
@[simp] theorem State.write_p (a : Addr) (v : Byte) : (s.write a v).p = s.p := by rw [State.write_eq]
theorem State.write_mem (a : Addr) (v : Byte) :
    (s.write a v).mem = if s.kindAt a = .ram then s.mem.set (s.phys a) v else s.mem := by rw [State.write_eq]
@[simp] theorem State.write_resLine (a : Addr) (v : Byte) : (s.write a v).resLine = s.resLine := by rw [State.write_eq]
@[simp] theorem State.write_rdyLine (a : Addr) (v : Byte) : (s.write a v).rdyLine = s.rdyLine := by rw [State.write_eq]
@[simp] theorem State.write_irqLine (a : Addr) (v : Byte) : (s.write a v).irqLine = s.irqLine := by rw [State.write_eq]
@[simp] theorem State.write_nmiPending (a : Addr) (v : Byte) : (s.write a v).nmiPending = s.nmiPending := by rw [State.write_eq]
@[simp] theorem State.write_soEdge (a : Addr) (v : Byte) : (s.write a v).soEdge = s.soEdge := by rw [State.write_eq]
@[simp] theorem State.write_soLate (a : Addr) (v : Byte) : (s.write a v).soLate = s.soLate := by rw [State.write_eq]
@[simp] theorem State.write_inReset (a : Addr) (v : Byte) : (s.write a v).inReset = s.inReset := by rw [State.write_eq]
@[simp] theorem State.write_iBefore (a : Addr) (v : Byte) : (s.write a v).iBefore = s.iBefore := by rw [State.write_eq]
@[simp] theorem State.write_maskLatent (a : Addr) (v : Byte) : (s.write a v).maskLatent = s.maskLatent := by rw [State.write_eq]
@[simp] theorem State.write_dmaReads (a : Addr) (v : Byte) : (s.write a v).dmaReads = s.dmaReads := by rw [State.write_eq]
@[simp] theorem State.write_inputs (a : Addr) (v : Byte) : (s.write a v).inputs = s.inputs := by rw [State.write_eq]
@[simp] theorem State.write_draws (a : Addr) (v : Byte) : (s.write a v).draws = s.draws := by rw [State.write_eq]
@[simp] theorem State.write_config (a : Addr) (v : Byte) : (s.write a v).config = s.config := by rw [State.write_eq]

@[simp] theorem State.push_a (v : Byte) : (s.push v).a = s.a := by simp [State.push]
@[simp] theorem State.push_x (v : Byte) : (s.push v).x = s.x := by simp [State.push]
@[simp] theorem State.push_y (v : Byte) : (s.push v).y = s.y := by simp [State.push]
@[simp] theorem State.push_sp (v : Byte) : (s.push v).sp = s.sp - 1 := rfl
@[simp] theorem State.push_pc (v : Byte) : (s.push v).pc = s.pc := by simp [State.push]
@[simp] theorem State.push_p (v : Byte) : (s.push v).p = s.p := by simp [State.push]
@[simp] theorem State.push_mem (v : Byte) : (s.push v).mem = (s.write (stackAddr s.sp) v).mem := rfl
@[simp] theorem State.push_resLine (v : Byte) : (s.push v).resLine = s.resLine := by simp [State.push]
@[simp] theorem State.push_rdyLine (v : Byte) : (s.push v).rdyLine = s.rdyLine := by simp [State.push]
@[simp] theorem State.push_irqLine (v : Byte) : (s.push v).irqLine = s.irqLine := by simp [State.push]
@[simp] theorem State.push_nmiPending (v : Byte) : (s.push v).nmiPending = s.nmiPending := by simp [State.push]
@[simp] theorem State.push_soEdge (v : Byte) : (s.push v).soEdge = s.soEdge := by simp [State.push]
@[simp] theorem State.push_soLate (v : Byte) : (s.push v).soLate = s.soLate := by simp [State.push]
@[simp] theorem State.push_inReset (v : Byte) : (s.push v).inReset = s.inReset := by simp [State.push]
@[simp] theorem State.push_iBefore (v : Byte) : (s.push v).iBefore = s.iBefore := by simp [State.push]
@[simp] theorem State.push_maskLatent (v : Byte) : (s.push v).maskLatent = s.maskLatent := by simp [State.push]
@[simp] theorem State.push_dmaReads (v : Byte) : (s.push v).dmaReads = s.dmaReads := by simp [State.push]
@[simp] theorem State.push_inputs (v : Byte) : (s.push v).inputs = s.inputs := by simp [State.push]
@[simp] theorem State.push_draws (v : Byte) : (s.push v).draws = s.draws := by simp [State.push]
@[simp] theorem State.push_config (v : Byte) : (s.push v).config = s.config := by simp [State.push]

/-- Setting fields to what they are changes nothing. -/
theorem State.ext_core (t : State) (h : { t with mem := s.mem } = s) (hm : t.mem = s.mem) : t = s := by
  rw [← h, ← hm]

end Writes

end Sys2Proof.Machine
end

