-- ==== Sys2Proof/Laws/Ops.lean ====
section
/-! SUPPORT. One lemma for each shared operation that says once what it can do. Proofs cite these instead of unfolding. -/

namespace Sys2Proof.Machine

/-- What sits at an address depends on the configuration alone. -/
theorem State.kindAt_congr {s t : State} (h : t.config = s.config) (a : Addr) : t.kindAt a = s.kindAt a := by
  simp [State.kindAt, State.phys, h]

/-- The address the platform receives depends on the configuration alone. -/
theorem State.phys_congr {s t : State} (h : t.config = s.config) (a : Addr) : t.phys a = s.phys a := by
  simp [State.phys, h]

/-- Addresses the platform cannot tell apart are of one kind. -/
theorem State.kindAt_of_phys {s : State} {a b : Addr} (h : s.phys a = s.phys b) : s.kindAt a = s.kindAt b := by
  simp [State.kindAt, h]

/-- A read depends on the configuration, the memory, a DMA agent's bytes and the number of the step's draws alone. -/
theorem State.read_congr {s t : State} (hc : t.config = s.config) (hm : t.mem = s.mem) (hd : t.draws = s.draws)
    (hr : t.dmaReads = s.dmaReads) (u : ByteUse) (a : Addr) : t.read u a = s.read u a := by
  simp [State.read, State.dmaByte, State.peek, State.kindAt_congr hc, State.phys_congr hc, hc, hm, hd, hr]

/-- A list that gives nothing for a key. -/
@[simp] theorem lastOf_nil {κ : Type} [DecidableEq κ] (k : κ) : lastOf [] k = none := rfl

/-- The last entry of a list is the one that counts for its key. -/
theorem lastOf_append_singleton {κ : Type} [DecidableEq κ] (l : List (κ × Byte)) (c : κ × Byte) (k : κ) :
    lastOf (l ++ [c]) k = if c.1 = k then some c.2 else lastOf l k := by
  unfold lastOf
  rw [List.reverse_append, List.reverse_singleton, List.singleton_append, List.find?_cons]
  by_cases h : c.1 = k <;> simp [h]

/-- Without an agent nothing comes before a read. -/
theorem State.dmaByte_none {s : State} (hd : s.config.dmaAgent = false) (u : ByteUse) : s.dmaByte u = none := by
  simp [State.dmaByte, hd]

/-- A read of ram gives the stored byte, or the one that a DMA agent has just put there. -/
theorem State.read_of_ram {s : State} {a : Addr} (hk : s.kindAt a = .ram) (u : ByteUse) :
    s.read u a = (s.dmaByte u).getD (s.peek a) := by
  simp [State.read, hk]

/-- A read of plain ram gives the stored byte. -/
theorem State.read_ram {s : State} {a : Addr} (hk : s.kindAt a = .ram) (hd : s.config.dmaAgent = false) (u : ByteUse) :
    s.read u a = s.peek a := by
  rw [State.read_of_ram hk, State.dmaByte_none hd, Option.getD_none]

/-- The platform receives an address inside its space. -/
theorem State.phys_lt (s : State) (a : Addr) : s.phys a < s.config.variant.addressSpace := by
  unfold State.phys
  apply Nat.mod_lt
  cases s.config.variant <;> decide

@[simp] theorem State.write_kindAt (s : State) (a b : Addr) (v : Byte) : (s.write a v).kindAt b = s.kindAt b :=
  State.kindAt_congr (by simp) b

@[simp] theorem State.write_phys (s : State) (a b : Addr) (v : Byte) : (s.write a v).phys b = s.phys b :=
  State.phys_congr (by simp) b

@[simp] theorem State.push_kindAt (s : State) (b : Addr) (v : Byte) : (s.push v).kindAt b = s.kindAt b :=
  State.kindAt_congr (by simp) b

@[simp] theorem State.push_phys (s : State) (b : Addr) (v : Byte) : (s.push v).phys b = s.phys b :=
  State.phys_congr (by simp) b

/-- A store keeps the canonical form. -/
theorem State.write_mem_wf {s : State} (h : s.mem.wf = true) (a : Addr) (v : Byte) : (s.write a v).mem.wf = true := by
  rw [State.write_mem]
  split
  · exact Memory.wf_set _ v h
  · exact h

/-- A store keeps the memory inside the platform's space. -/
theorem State.write_mem_within {s : State} (h : s.mem.within s.config.variant.addressSpace = true) (a : Addr) (v : Byte) :
    (s.write a v).mem.within s.config.variant.addressSpace = true := by
  rw [State.write_mem]
  split
  · exact Memory.within_set _ _ v (s.phys_lt a) h
  · exact h

/-- What a store leaves at each address. -/
theorem State.peek_write {s : State} (h : s.mem.wf = true) (a b : Addr) (v : Byte) :
    (s.write a v).peek b = if s.kindAt a = .ram ∧ s.phys a = s.phys b then v else s.peek b := by
  unfold State.peek
  rw [State.write_phys, State.write_mem]
  by_cases hk : s.kindAt a = .ram
  · rw [if_pos hk, Memory.get_set _ _ _ h]
    simp [hk]
  · simp [hk]

/-- A push keeps the canonical form. -/
theorem State.push_mem_wf {s : State} (h : s.mem.wf = true) (v : Byte) : (s.push v).mem.wf = true := by
  rw [State.push_mem]
  exact State.write_mem_wf h _ v

/-- A push keeps the memory inside the platform's space. -/
theorem State.push_mem_within {s : State} (h : s.mem.within s.config.variant.addressSpace = true) (v : Byte) :
    (s.push v).mem.within s.config.variant.addressSpace = true := by
  rw [State.push_mem]
  exact State.write_mem_within h _ v

/-- What a push leaves at each address. -/
theorem State.peek_push {s : State} (h : s.mem.wf = true) (b : Addr) (v : Byte) :
    (s.push v).peek b =
      if s.kindAt (stackAddr s.sp) = .ram ∧ s.phys (stackAddr s.sp) = s.phys b then v else s.peek b := by
  rw [← State.peek_write h]
  simp [State.peek, State.push, State.phys]

/-- What taking a break or an interrupt answers: the state `enter` gives, or the device refusal. -/
theorem State.takeBreak_next_iff (s t : State) (ret : Addr) (b : Bool) (vec : Addr) :
    s.takeBreak ret b vec = .next t ↔ s.pushTouches 3 = false ∧ s.enter ret b vec = t := by
  unfold State.takeBreak unlessDevice
  cases s.pushTouches 3 <;> simp

/-- The registers and flags taking a break or an interrupt leaves. -/
theorem State.enter_registers (s : State) (ret : Addr) (b : Bool) (vec : Addr) :
    (s.enter ret b vec).a = s.a ∧ (s.enter ret b vec).x = s.x ∧ (s.enter ret b vec).y = s.y ∧
      (s.enter ret b vec).sp = s.sp - 1 - 1 - 1 ∧ (s.enter ret b vec).p = { s.p with i := true } := by
  simp [State.enter, State.pushAddr]

/-- The memory taking a break or an interrupt leaves is that of its three pushes. -/
theorem State.enter_mem (s : State) (ret : Addr) (b : Bool) (vec : Addr) :
    (s.enter ret b vec).mem = (((s.push (hiByte ret)).push (loByte ret)).push (s.p.image b)).mem := by
  simp [State.enter, State.pushAddr]

/-- Taking a break or an interrupt leaves everything but S, memory, P and PC. -/
theorem State.enter_frame (s : State) (ret : Addr) (b : Bool) (vec : Addr) :
    { s.enter ret b vec with sp := s.sp, p := s.p, pc := s.pc, mem := s.mem } = s := by
  simp [State.enter, State.pushAddr, State.maskIrq, State.setPc, State.setP, State.push, State.setSp, State.write_eq]

/-- What a return from interrupt answers: the state `returned` gives, or the device refusal. -/
theorem State.returnFromInterrupt_next_iff (s t : State) :
    s.returnFromInterrupt = .next t ↔ s.pullTouches 3 = false ∧ s.returned = t := by
  unfold State.returnFromInterrupt unlessDevice
  cases s.pullTouches 3 <;> simp

/-- A return from interrupt in full: three pulls, P, PCL, PCH. -/
theorem State.returned_eq (s : State) :
    s.returned =
      { s with
        p := Status.ofByte (s.pulled .pulledStatus 0)
        pc := joinBytes (s.pulled .pulledLow 1) (s.pulled .pulledHigh 2)
        sp := s.sp + 3 } := rfl

/-- `unlessDevice` answers the state it is given, or the device refusal. -/
theorem unlessDevice_next_iff (b : Bool) (t u : State) : unlessDevice b t = .next u ↔ b = false ∧ t = u := by
  cases b <;> simp [unlessDevice]

theorem unlessDevice_refused_iff (b : Bool) (t : State) (r : Refusal) :
    unlessDevice b t = .refused r ↔ b = true ∧ r = .deviceSideEffects := by
  cases b <;> simp [unlessDevice, eq_comm]

@[simp] theorem unlessDevice_false (t : State) : unlessDevice false t = .next t := rfl

@[simp] theorem unlessDevice_true (t : State) : unlessDevice true t = .refused .deviceSideEffects := rfl

/-- What a DMA agent writes is memory in canonical form. -/
theorem State.afterDma_wf {s : State} (h : s.mem.wf = true) (cells : List Host.Cell) : (s.afterDma cells).wf = true := by
  unfold State.afterDma
  split
  · induction cells using List.reverseRecOn with
    | nil => exact h
    | append_singleton rest c ih =>
      rw [List.foldl_append]
      simp only [List.foldl_cons, List.foldl_nil, State.dmaStore]
      split
      · exact Memory.wf_set _ _ ih
      · exact ih
  · exact h

/-- What a DMA agent writes is inside the platform's space. -/
theorem State.afterDma_within {s : State} (h : s.mem.within s.config.variant.addressSpace = true) (cells : List Host.Cell) :
    (s.afterDma cells).within s.config.variant.addressSpace = true := by
  unfold State.afterDma
  split
  · induction cells using List.reverseRecOn with
    | nil => exact h
    | append_singleton rest c ih =>
      rw [List.foldl_append]
      simp only [List.foldl_cons, List.foldl_nil, State.dmaStore]
      split
      · rename_i hc
        exact Memory.within_set _ _ _ hc.1 ih
      · exact ih
  · exact h

/-- Without an agent memory stays as it is. -/
theorem State.afterDma_none {s : State} (hd : s.config.dmaAgent = false) (cells : List Host.Cell) :
    s.afterDma cells = s.mem := by
  simp [State.afterDma, hd]

/-- Each byte of the platform's space after what a DMA agent has written: in ram the last byte written there, if any. -/
theorem State.get_afterDma {s : State} (h : s.mem.wf = true) (cells : List Host.Cell) {a : Nat}
    (ha : a < s.config.variant.addressSpace) :
    (s.afterDma cells).get a =
      if s.config.dmaAgent = true ∧ regionKind s.config.memoryMap a = .ram then (lastOf cells a).getD (s.mem.get a)
      else s.mem.get a := by
  by_cases hd : s.config.dmaAgent = true
  · induction cells using List.reverseRecOn with
    | nil => simp [State.afterDma]
    | append_singleton rest c ih =>
      have hw := State.afterDma_wf h rest
      simp only [State.afterDma, hd, if_true] at ih hw ⊢
      rw [List.foldl_append, lastOf_append_singleton]
      simp only [List.foldl_cons, List.foldl_nil]
      rw [State.dmaStore]
      split
      · rename_i hc
        rw [Memory.get_set _ _ _ hw, ih]
        by_cases hca : c.1 = a
        · simp [hca, hca ▸ hc.2]
        · simp [hca]
      · rename_i hc
        rw [ih]
        by_cases hca : c.1 = a
        · subst hca
          simp [show ¬ regionKind s.config.memoryMap c.1 = .ram from fun hk => hc ⟨ha, hk⟩]
        · simp [hca]
  · simp [State.afterDma, hd]

end Sys2Proof.Machine
end

