-- ==== Sys2Proof/Laws/Operands.lean ====
section
/-! SUPPORT. What the shared shapes of an instruction can answer: reading, storing, read-modify-write, shifting. -/

namespace Sys2Proof.Machine

/-- What a reading instruction answers. -/
theorem State.reading_next_iff (s t : State) (src : Source) (k : Byte → State) :
    s.reading src k = .next t ↔ s.sourceTouches src = false ∧ (k (s.sourceByte src)).advance src.length = t :=
  unlessDevice_next_iff _ _ _

/-- What a storing instruction answers. -/
theorem State.storing_next_iff (s t : State) (m : MemMode) (v : Byte) :
    s.storing m v = .next t ↔ s.modeTouches m = false ∧ (s.write (s.ea m) v).advance m.length = t :=
  unlessDevice_next_iff _ _ _

/-- What a read-modify-write instruction on memory answers. -/
theorem State.modifying_next_iff (s t : State) (m : MemMode) (f : Byte → Status → Shifted) :
    s.modifying m f = .next t ↔ s.modifyTouches m = false ∧
      (((s.write (s.ea m) (f (s.read .operand (s.ea m)) s.p).r).setP
        (f (s.read .operand (s.ea m)) s.p).p).advance m.length) = t :=
  unlessDevice_next_iff _ _ _

/-- A shift on the accumulator always completes. -/
theorem State.shifting_accumulator (s : State) (f : Byte → Status → Shifted) :
    s.shifting .accumulator f = .next (((s.setA (f s.a s.p).r).setP (f s.a s.p).p).advance 1) := rfl

/-- A shift on memory is a read-modify-write. -/
theorem State.shifting_memory (s : State) (m : MemMode) (f : Byte → Status → Shifted) :
    s.shifting (.memory m) f = s.modifying m f := rfl

/-- The effective address depends on the configuration, memory, X, Y, a DMA agent's bytes and the step's draws alone. -/
theorem State.ea_congr {s t : State} (hc : t.config = s.config) (hm : t.mem = s.mem) (hd : t.draws = s.draws)
    (hr : t.dmaReads = s.dmaReads) (hx : t.x = s.x) (hy : t.y = s.y) (m : MemMode) : t.ea m = s.ea m := by
  cases m <;> simp [State.ea, State.pointer, State.read_congr hc hm hd hr, hx, hy]

end Sys2Proof.Machine
end

