-- ==== Sys2Proof/Laws/PerInstr.lean ====
section
/-! SUPPORT. What holds of each instruction as syntax, one lemma per constructor. -/

namespace Sys2Proof.Laws

/-- The opcode byte of an instruction is an assigned one, and the map by opcode byte gives it as many operand bytes as the
instruction's addressing mode has (spec/30_encoding.md R81, R84). -/
def OpcodeMapped.Statement (i : Instr) : Prop :=
  (shapeOf i.opcode).map Shape.operandBytes = some i.operand.bytes.length

theorem OpcodeMapped.adcImm (imm : Byte) : OpcodeMapped.Statement (.adcImm imm) := rfl
theorem OpcodeMapped.adcAbs (addr : Addr) : OpcodeMapped.Statement (.adcAbs addr) := rfl
theorem OpcodeMapped.adcZp (zp : Byte) : OpcodeMapped.Statement (.adcZp zp) := rfl
theorem OpcodeMapped.adcIndX (zp : Byte) : OpcodeMapped.Statement (.adcIndX zp) := rfl
theorem OpcodeMapped.adcIndY (zp : Byte) : OpcodeMapped.Statement (.adcIndY zp) := rfl
theorem OpcodeMapped.adcZpX (zp : Byte) : OpcodeMapped.Statement (.adcZpX zp) := rfl
theorem OpcodeMapped.adcAbsX (addr : Addr) : OpcodeMapped.Statement (.adcAbsX addr) := rfl
theorem OpcodeMapped.adcAbsY (addr : Addr) : OpcodeMapped.Statement (.adcAbsY addr) := rfl
theorem OpcodeMapped.andImm (imm : Byte) : OpcodeMapped.Statement (.andImm imm) := rfl
theorem OpcodeMapped.andAbs (addr : Addr) : OpcodeMapped.Statement (.andAbs addr) := rfl
theorem OpcodeMapped.andZp (zp : Byte) : OpcodeMapped.Statement (.andZp zp) := rfl
theorem OpcodeMapped.andIndX (zp : Byte) : OpcodeMapped.Statement (.andIndX zp) := rfl
theorem OpcodeMapped.andIndY (zp : Byte) : OpcodeMapped.Statement (.andIndY zp) := rfl
theorem OpcodeMapped.andZpX (zp : Byte) : OpcodeMapped.Statement (.andZpX zp) := rfl
theorem OpcodeMapped.andAbsX (addr : Addr) : OpcodeMapped.Statement (.andAbsX addr) := rfl
theorem OpcodeMapped.andAbsY (addr : Addr) : OpcodeMapped.Statement (.andAbsY addr) := rfl
theorem OpcodeMapped.aslAbs (addr : Addr) : OpcodeMapped.Statement (.aslAbs addr) := rfl
theorem OpcodeMapped.aslZp (zp : Byte) : OpcodeMapped.Statement (.aslZp zp) := rfl
theorem OpcodeMapped.aslAcc : OpcodeMapped.Statement .aslAcc := rfl
theorem OpcodeMapped.aslZpX (zp : Byte) : OpcodeMapped.Statement (.aslZpX zp) := rfl
theorem OpcodeMapped.aslAbsX (addr : Addr) : OpcodeMapped.Statement (.aslAbsX addr) := rfl
theorem OpcodeMapped.bcc (rel : Byte) : OpcodeMapped.Statement (.bcc rel) := rfl
theorem OpcodeMapped.bcs (rel : Byte) : OpcodeMapped.Statement (.bcs rel) := rfl
theorem OpcodeMapped.beq (rel : Byte) : OpcodeMapped.Statement (.beq rel) := rfl
theorem OpcodeMapped.bitAbs (addr : Addr) : OpcodeMapped.Statement (.bitAbs addr) := rfl
theorem OpcodeMapped.bitZp (zp : Byte) : OpcodeMapped.Statement (.bitZp zp) := rfl
theorem OpcodeMapped.bmi (rel : Byte) : OpcodeMapped.Statement (.bmi rel) := rfl
theorem OpcodeMapped.bne (rel : Byte) : OpcodeMapped.Statement (.bne rel) := rfl
theorem OpcodeMapped.bpl (rel : Byte) : OpcodeMapped.Statement (.bpl rel) := rfl
theorem OpcodeMapped.brk : OpcodeMapped.Statement .brk := rfl
theorem OpcodeMapped.bvc (rel : Byte) : OpcodeMapped.Statement (.bvc rel) := rfl
theorem OpcodeMapped.bvs (rel : Byte) : OpcodeMapped.Statement (.bvs rel) := rfl
theorem OpcodeMapped.clc : OpcodeMapped.Statement .clc := rfl
theorem OpcodeMapped.cld : OpcodeMapped.Statement .cld := rfl
theorem OpcodeMapped.cli : OpcodeMapped.Statement .cli := rfl
theorem OpcodeMapped.clv : OpcodeMapped.Statement .clv := rfl
theorem OpcodeMapped.cmpImm (imm : Byte) : OpcodeMapped.Statement (.cmpImm imm) := rfl
theorem OpcodeMapped.cmpAbs (addr : Addr) : OpcodeMapped.Statement (.cmpAbs addr) := rfl
theorem OpcodeMapped.cmpZp (zp : Byte) : OpcodeMapped.Statement (.cmpZp zp) := rfl
theorem OpcodeMapped.cmpIndX (zp : Byte) : OpcodeMapped.Statement (.cmpIndX zp) := rfl
theorem OpcodeMapped.cmpIndY (zp : Byte) : OpcodeMapped.Statement (.cmpIndY zp) := rfl
theorem OpcodeMapped.cmpZpX (zp : Byte) : OpcodeMapped.Statement (.cmpZpX zp) := rfl
theorem OpcodeMapped.cmpAbsX (addr : Addr) : OpcodeMapped.Statement (.cmpAbsX addr) := rfl
theorem OpcodeMapped.cmpAbsY (addr : Addr) : OpcodeMapped.Statement (.cmpAbsY addr) := rfl
theorem OpcodeMapped.cpxImm (imm : Byte) : OpcodeMapped.Statement (.cpxImm imm) := rfl
theorem OpcodeMapped.cpxAbs (addr : Addr) : OpcodeMapped.Statement (.cpxAbs addr) := rfl
theorem OpcodeMapped.cpxZp (zp : Byte) : OpcodeMapped.Statement (.cpxZp zp) := rfl
theorem OpcodeMapped.cpyImm (imm : Byte) : OpcodeMapped.Statement (.cpyImm imm) := rfl
theorem OpcodeMapped.cpyAbs (addr : Addr) : OpcodeMapped.Statement (.cpyAbs addr) := rfl
theorem OpcodeMapped.cpyZp (zp : Byte) : OpcodeMapped.Statement (.cpyZp zp) := rfl
theorem OpcodeMapped.decAbs (addr : Addr) : OpcodeMapped.Statement (.decAbs addr) := rfl
theorem OpcodeMapped.decZp (zp : Byte) : OpcodeMapped.Statement (.decZp zp) := rfl
theorem OpcodeMapped.decZpX (zp : Byte) : OpcodeMapped.Statement (.decZpX zp) := rfl
theorem OpcodeMapped.decAbsX (addr : Addr) : OpcodeMapped.Statement (.decAbsX addr) := rfl
theorem OpcodeMapped.dex : OpcodeMapped.Statement .dex := rfl
theorem OpcodeMapped.dey : OpcodeMapped.Statement .dey := rfl
theorem OpcodeMapped.eorImm (imm : Byte) : OpcodeMapped.Statement (.eorImm imm) := rfl
theorem OpcodeMapped.eorAbs (addr : Addr) : OpcodeMapped.Statement (.eorAbs addr) := rfl
theorem OpcodeMapped.eorZp (zp : Byte) : OpcodeMapped.Statement (.eorZp zp) := rfl
theorem OpcodeMapped.eorIndX (zp : Byte) : OpcodeMapped.Statement (.eorIndX zp) := rfl
theorem OpcodeMapped.eorIndY (zp : Byte) : OpcodeMapped.Statement (.eorIndY zp) := rfl
theorem OpcodeMapped.eorZpX (zp : Byte) : OpcodeMapped.Statement (.eorZpX zp) := rfl
theorem OpcodeMapped.eorAbsX (addr : Addr) : OpcodeMapped.Statement (.eorAbsX addr) := rfl
theorem OpcodeMapped.eorAbsY (addr : Addr) : OpcodeMapped.Statement (.eorAbsY addr) := rfl
theorem OpcodeMapped.incAbs (addr : Addr) : OpcodeMapped.Statement (.incAbs addr) := rfl
theorem OpcodeMapped.incZp (zp : Byte) : OpcodeMapped.Statement (.incZp zp) := rfl
theorem OpcodeMapped.incZpX (zp : Byte) : OpcodeMapped.Statement (.incZpX zp) := rfl
theorem OpcodeMapped.incAbsX (addr : Addr) : OpcodeMapped.Statement (.incAbsX addr) := rfl
theorem OpcodeMapped.inx : OpcodeMapped.Statement .inx := rfl
theorem OpcodeMapped.iny : OpcodeMapped.Statement .iny := rfl
theorem OpcodeMapped.jmpAbs (addr : Addr) : OpcodeMapped.Statement (.jmpAbs addr) := rfl
theorem OpcodeMapped.jmpInd (ptr : Addr) : OpcodeMapped.Statement (.jmpInd ptr) := rfl
theorem OpcodeMapped.jsr (addr : Addr) : OpcodeMapped.Statement (.jsr addr) := rfl
theorem OpcodeMapped.ldaImm (imm : Byte) : OpcodeMapped.Statement (.ldaImm imm) := rfl
theorem OpcodeMapped.ldaAbs (addr : Addr) : OpcodeMapped.Statement (.ldaAbs addr) := rfl
theorem OpcodeMapped.ldaZp (zp : Byte) : OpcodeMapped.Statement (.ldaZp zp) := rfl
theorem OpcodeMapped.ldaIndX (zp : Byte) : OpcodeMapped.Statement (.ldaIndX zp) := rfl
theorem OpcodeMapped.ldaIndY (zp : Byte) : OpcodeMapped.Statement (.ldaIndY zp) := rfl
theorem OpcodeMapped.ldaZpX (zp : Byte) : OpcodeMapped.Statement (.ldaZpX zp) := rfl
theorem OpcodeMapped.ldaAbsX (addr : Addr) : OpcodeMapped.Statement (.ldaAbsX addr) := rfl
theorem OpcodeMapped.ldaAbsY (addr : Addr) : OpcodeMapped.Statement (.ldaAbsY addr) := rfl
theorem OpcodeMapped.ldxImm (imm : Byte) : OpcodeMapped.Statement (.ldxImm imm) := rfl
theorem OpcodeMapped.ldxAbs (addr : Addr) : OpcodeMapped.Statement (.ldxAbs addr) := rfl
theorem OpcodeMapped.ldxZp (zp : Byte) : OpcodeMapped.Statement (.ldxZp zp) := rfl
theorem OpcodeMapped.ldxAbsY (addr : Addr) : OpcodeMapped.Statement (.ldxAbsY addr) := rfl
theorem OpcodeMapped.ldxZpY (zp : Byte) : OpcodeMapped.Statement (.ldxZpY zp) := rfl
theorem OpcodeMapped.ldyImm (imm : Byte) : OpcodeMapped.Statement (.ldyImm imm) := rfl
theorem OpcodeMapped.ldyAbs (addr : Addr) : OpcodeMapped.Statement (.ldyAbs addr) := rfl
theorem OpcodeMapped.ldyZp (zp : Byte) : OpcodeMapped.Statement (.ldyZp zp) := rfl
theorem OpcodeMapped.ldyZpX (zp : Byte) : OpcodeMapped.Statement (.ldyZpX zp) := rfl
theorem OpcodeMapped.ldyAbsX (addr : Addr) : OpcodeMapped.Statement (.ldyAbsX addr) := rfl
theorem OpcodeMapped.lsrAbs (addr : Addr) : OpcodeMapped.Statement (.lsrAbs addr) := rfl
theorem OpcodeMapped.lsrZp (zp : Byte) : OpcodeMapped.Statement (.lsrZp zp) := rfl
theorem OpcodeMapped.lsrAcc : OpcodeMapped.Statement .lsrAcc := rfl
theorem OpcodeMapped.lsrZpX (zp : Byte) : OpcodeMapped.Statement (.lsrZpX zp) := rfl
theorem OpcodeMapped.lsrAbsX (addr : Addr) : OpcodeMapped.Statement (.lsrAbsX addr) := rfl
theorem OpcodeMapped.nop : OpcodeMapped.Statement .nop := rfl
theorem OpcodeMapped.oraImm (imm : Byte) : OpcodeMapped.Statement (.oraImm imm) := rfl
theorem OpcodeMapped.oraAbs (addr : Addr) : OpcodeMapped.Statement (.oraAbs addr) := rfl
theorem OpcodeMapped.oraZp (zp : Byte) : OpcodeMapped.Statement (.oraZp zp) := rfl
theorem OpcodeMapped.oraIndX (zp : Byte) : OpcodeMapped.Statement (.oraIndX zp) := rfl
theorem OpcodeMapped.oraIndY (zp : Byte) : OpcodeMapped.Statement (.oraIndY zp) := rfl
theorem OpcodeMapped.oraZpX (zp : Byte) : OpcodeMapped.Statement (.oraZpX zp) := rfl
theorem OpcodeMapped.oraAbsX (addr : Addr) : OpcodeMapped.Statement (.oraAbsX addr) := rfl
theorem OpcodeMapped.oraAbsY (addr : Addr) : OpcodeMapped.Statement (.oraAbsY addr) := rfl
theorem OpcodeMapped.pha : OpcodeMapped.Statement .pha := rfl
theorem OpcodeMapped.php : OpcodeMapped.Statement .php := rfl
theorem OpcodeMapped.pla : OpcodeMapped.Statement .pla := rfl
theorem OpcodeMapped.plp : OpcodeMapped.Statement .plp := rfl
theorem OpcodeMapped.rolAbs (addr : Addr) : OpcodeMapped.Statement (.rolAbs addr) := rfl
theorem OpcodeMapped.rolZp (zp : Byte) : OpcodeMapped.Statement (.rolZp zp) := rfl
theorem OpcodeMapped.rolAcc : OpcodeMapped.Statement .rolAcc := rfl
theorem OpcodeMapped.rolZpX (zp : Byte) : OpcodeMapped.Statement (.rolZpX zp) := rfl
theorem OpcodeMapped.rolAbsX (addr : Addr) : OpcodeMapped.Statement (.rolAbsX addr) := rfl
theorem OpcodeMapped.rorAbs (addr : Addr) : OpcodeMapped.Statement (.rorAbs addr) := rfl
theorem OpcodeMapped.rorZp (zp : Byte) : OpcodeMapped.Statement (.rorZp zp) := rfl
theorem OpcodeMapped.rorAcc : OpcodeMapped.Statement .rorAcc := rfl
theorem OpcodeMapped.rorZpX (zp : Byte) : OpcodeMapped.Statement (.rorZpX zp) := rfl
theorem OpcodeMapped.rorAbsX (addr : Addr) : OpcodeMapped.Statement (.rorAbsX addr) := rfl
theorem OpcodeMapped.rti : OpcodeMapped.Statement .rti := rfl
theorem OpcodeMapped.rts : OpcodeMapped.Statement .rts := rfl
theorem OpcodeMapped.sbcImm (imm : Byte) : OpcodeMapped.Statement (.sbcImm imm) := rfl
theorem OpcodeMapped.sbcAbs (addr : Addr) : OpcodeMapped.Statement (.sbcAbs addr) := rfl
theorem OpcodeMapped.sbcZp (zp : Byte) : OpcodeMapped.Statement (.sbcZp zp) := rfl
theorem OpcodeMapped.sbcIndX (zp : Byte) : OpcodeMapped.Statement (.sbcIndX zp) := rfl
theorem OpcodeMapped.sbcIndY (zp : Byte) : OpcodeMapped.Statement (.sbcIndY zp) := rfl
theorem OpcodeMapped.sbcZpX (zp : Byte) : OpcodeMapped.Statement (.sbcZpX zp) := rfl
theorem OpcodeMapped.sbcAbsX (addr : Addr) : OpcodeMapped.Statement (.sbcAbsX addr) := rfl
theorem OpcodeMapped.sbcAbsY (addr : Addr) : OpcodeMapped.Statement (.sbcAbsY addr) := rfl
theorem OpcodeMapped.sec : OpcodeMapped.Statement .sec := rfl
theorem OpcodeMapped.sed : OpcodeMapped.Statement .sed := rfl
theorem OpcodeMapped.sei : OpcodeMapped.Statement .sei := rfl
theorem OpcodeMapped.staAbs (addr : Addr) : OpcodeMapped.Statement (.staAbs addr) := rfl
theorem OpcodeMapped.staZp (zp : Byte) : OpcodeMapped.Statement (.staZp zp) := rfl
theorem OpcodeMapped.staIndX (zp : Byte) : OpcodeMapped.Statement (.staIndX zp) := rfl
theorem OpcodeMapped.staIndY (zp : Byte) : OpcodeMapped.Statement (.staIndY zp) := rfl
theorem OpcodeMapped.staZpX (zp : Byte) : OpcodeMapped.Statement (.staZpX zp) := rfl
theorem OpcodeMapped.staAbsX (addr : Addr) : OpcodeMapped.Statement (.staAbsX addr) := rfl
theorem OpcodeMapped.staAbsY (addr : Addr) : OpcodeMapped.Statement (.staAbsY addr) := rfl
theorem OpcodeMapped.stxAbs (addr : Addr) : OpcodeMapped.Statement (.stxAbs addr) := rfl
theorem OpcodeMapped.stxZp (zp : Byte) : OpcodeMapped.Statement (.stxZp zp) := rfl
theorem OpcodeMapped.stxZpY (zp : Byte) : OpcodeMapped.Statement (.stxZpY zp) := rfl
theorem OpcodeMapped.styAbs (addr : Addr) : OpcodeMapped.Statement (.styAbs addr) := rfl
theorem OpcodeMapped.styZp (zp : Byte) : OpcodeMapped.Statement (.styZp zp) := rfl
theorem OpcodeMapped.styZpX (zp : Byte) : OpcodeMapped.Statement (.styZpX zp) := rfl
theorem OpcodeMapped.tax : OpcodeMapped.Statement .tax := rfl
theorem OpcodeMapped.tay : OpcodeMapped.Statement .tay := rfl
theorem OpcodeMapped.tsx : OpcodeMapped.Statement .tsx := rfl
theorem OpcodeMapped.txa : OpcodeMapped.Statement .txa := rfl
theorem OpcodeMapped.txs : OpcodeMapped.Statement .txs := rfl
theorem OpcodeMapped.tya : OpcodeMapped.Statement .tya := rfl

end Sys2Proof.Laws
end

