-- ==== Sys2Proof/Laws/Step.lean ====
section
/-! SUPPORT. What one step can do. -/

namespace Sys2Proof.Machine

/-- What taking in the inputs leaves alone. -/
theorem State.applyInputs_frame (s : State) :
    { s.applyInputs with
      inputs := s.inputs, resLine := s.resLine, rdyLine := s.rdyLine, irqLine := s.irqLine,
      nmiPending := s.nmiPending, soEdge := s.soEdge, soLate := s.soLate, mem := s.mem, dmaReads := s.dmaReads } = s := by
  unfold State.applyInputs
  split <;> rfl

/-- The start of a step changes inputs, pins, latches, a DMA agent's bytes and the number of the draws only. -/
theorem State.sample_frame (s : State) :
    { s.sample with
      inputs := s.inputs, resLine := s.resLine, rdyLine := s.rdyLine, irqLine := s.irqLine,
      nmiPending := s.nmiPending, soEdge := s.soEdge, soLate := s.soLate, mem := s.mem, dmaReads := s.dmaReads
      draws := s.draws } = s := by
  have h := State.applyInputs_frame { s with draws := s.draws + 1 }
  unfold State.sample
  rw [State.mk.injEq] at h ⊢
  simp_all

section Sample
variable (s : State)

@[simp] theorem State.sample_a : s.sample.a = s.a := by
  unfold State.sample State.applyInputs
  split <;> rfl
@[simp] theorem State.sample_x : s.sample.x = s.x := by
  unfold State.sample State.applyInputs
  split <;> rfl
@[simp] theorem State.sample_y : s.sample.y = s.y := by
  unfold State.sample State.applyInputs
  split <;> rfl
@[simp] theorem State.sample_sp : s.sample.sp = s.sp := by
  unfold State.sample State.applyInputs
  split <;> rfl
@[simp] theorem State.sample_pc : s.sample.pc = s.pc := by
  unfold State.sample State.applyInputs
  split <;> rfl
@[simp] theorem State.sample_p : s.sample.p = s.p := by
  unfold State.sample State.applyInputs
  split <;> rfl
@[simp] theorem State.sample_inReset : s.sample.inReset = s.inReset := by
  unfold State.sample State.applyInputs
  split <;> rfl
@[simp] theorem State.sample_iBefore : s.sample.iBefore = s.iBefore := by
  unfold State.sample State.applyInputs
  split <;> rfl
@[simp] theorem State.sample_maskLatent : s.sample.maskLatent = s.maskLatent := by
  unfold State.sample State.applyInputs
  split <;> rfl
@[simp] theorem State.sample_draws : s.sample.draws = s.draws + 1 := by
  unfold State.sample State.applyInputs
  split <;> rfl
@[simp] theorem State.sample_config : s.sample.config = s.config := by
  unfold State.sample State.applyInputs
  split <;> rfl

/-- Taking in the inputs keeps the canonical form. -/
theorem State.sample_mem_wf {s : State} (h : s.mem.wf = true) : s.sample.mem.wf = true := by
  unfold State.sample State.applyInputs
  split
  · exact h
  · exact State.afterDma_wf (s := { s with draws := s.draws + 1 }) h _

/-- Taking in the inputs keeps the memory inside the platform's space. -/
theorem State.sample_mem_within {s : State} (h : s.mem.within s.config.variant.addressSpace = true) :
    s.sample.mem.within s.config.variant.addressSpace = true := by
  unfold State.sample State.applyInputs
  split
  · exact h
  · exact State.afterDma_within (s := { s with draws := s.draws + 1 }) h _

/-- Without a DMA agent taking in the inputs leaves memory. -/
theorem State.sample_mem_of_no_agent {s : State} (hd : s.config.dmaAgent = false) : s.sample.mem = s.mem := by
  unfold State.sample State.applyInputs
  split
  · rfl
  · exact State.afterDma_none (s := { s with draws := s.draws + 1 }) hd _

end Sample

/-- An S.O. edge changes V and its own latch only. -/
theorem State.applyEdge_eq (s : State) :
    s.applyEdge = { s with p := { s.p with v := s.p.v || s.soEdge }, soEdge := false } := by
  unfold State.applyEdge
  obtain ⟨⟩ := s
  split <;> simp_all [State.setP]

/-- A late S.O. edge changes V and its own latch only. -/
theorem State.applyLate_eq (s : State) :
    s.applyLate = { s with p := { s.p with v := s.p.v || s.soLate }, soLate := false } := by
  unfold State.applyLate
  obtain ⟨⟩ := s
  split <;> simp_all [State.setP]

/-- A late edge keeps a step's kind of answer. -/
theorem lateEdge_next_iff (r : Result) (t : State) : lateEdge r = .next t ↔ ∃ u, r = .next u ∧ u.applyLate = t := by
  cases r <;> simp [lateEdge]

theorem lateEdge_refused_iff (r : Result) (k : Refusal) : lateEdge r = .refused k ↔ r = .refused k := by
  cases r <;> simp [lateEdge]

/-- What running one instruction answers: `exec` of the fetched instruction, or the refusal of an unassigned opcode. -/
theorem runInstruction_next_iff (s t : State) :
    runInstruction s = .next t ↔ ∃ i, s.fetched = some i ∧ exec i (s.begin i) = .next t := by
  unfold runInstruction
  cases s.fetched <;> simp

/-- Every next state of a step comes from one of the six events. -/
theorem step_next_cases {s t : State} (h : step s = .next t) :
    (s.sample.event = .held ∧ t = s.sample.hold) ∨
    (s.sample.event = .reset ∧ t = s.sample.resetSequence) ∨
    (s.sample.event = .halted ∧ t = s.sample.halt) ∨
    (s.sample.event = .nmi ∧ ∃ u, s.sample.applyEdge.takeNmi = .next u ∧ u.applyLate = t) ∨
    (s.sample.event = .irq ∧ ∃ u, s.sample.applyEdge.takeIrq = .next u ∧ u.applyLate = t) ∨
    (s.sample.event = .instruction ∧ ∃ i u, s.sample.applyEdge.fetched = some i ∧
      exec i (s.sample.applyEdge.begin i) = .next u ∧ u.applyLate = t) := by
  unfold step at h
  cases he : s.sample.event <;> rw [he] at h <;> simp only [act] at h
  · exact .inl ⟨rfl, by simpa using h.symm⟩
  · exact .inr (.inl ⟨rfl, by simpa using h.symm⟩)
  · exact .inr (.inr (.inl ⟨rfl, by simpa using h.symm⟩))
  · exact .inr (.inr (.inr (.inl ⟨rfl, (lateEdge_next_iff _ _).1 h⟩)))
  · exact .inr (.inr (.inr (.inr (.inl ⟨rfl, (lateEdge_next_iff _ _).1 h⟩))))
  · obtain ⟨u, hu, ht⟩ := (lateEdge_next_iff _ _).1 h
    obtain ⟨i, hi, hx⟩ := (runInstruction_next_iff _ _).1 hu
    exact .inr (.inr (.inr (.inr (.inr ⟨rfl, i, u, hi, hx, ht⟩))))

/-- Every refusal of a step comes from an interrupt's pushes, an unassigned opcode or the instruction. -/
theorem step_refused_cases {s : State} {k : Refusal} (h : step s = .refused k) :
    (s.sample.event = .nmi ∧ s.sample.applyEdge.takeNmi = .refused k) ∨
    (s.sample.event = .irq ∧ s.sample.applyEdge.takeIrq = .refused k) ∨
    (s.sample.event = .instruction ∧ s.sample.applyEdge.fetched = none ∧
      k = .unassignedOpcode s.sample.applyEdge.opcodeByte) ∨
    (s.sample.event = .instruction ∧ ∃ i, s.sample.applyEdge.fetched = some i ∧
      exec i (s.sample.applyEdge.begin i) = .refused k) := by
  unfold step at h
  cases he : s.sample.event <;> rw [he] at h <;> simp only [act] at h
  · simp at h
  · simp at h
  · simp at h
  · exact .inl ⟨rfl, (lateEdge_refused_iff _ _).1 h⟩
  · exact .inr (.inl ⟨rfl, (lateEdge_refused_iff _ _).1 h⟩)
  · have h := (lateEdge_refused_iff _ _).1 h
    unfold runInstruction at h
    cases hf : s.sample.applyEdge.fetched with
    | none =>
      rw [hf] at h
      exact .inr (.inr (.inl ⟨rfl, rfl, by simpa using h.symm⟩))
    | some i =>
      rw [hf] at h
      exact .inr (.inr (.inr ⟨rfl, i, rfl, h⟩))

end Sys2Proof.Machine
end

