-- ==== Sys2Proof/Tests/Slice0.lean ====
section
/-! SUPPORT. Tests: decoding of every row of the opcode table, ill-formed configurations refused, single steps from
spec/95_test_vectors.md, and for each obligation with hypotheses a state and operands that meet them. -/

namespace Sys2Proof.Tests

open Sys2Proof Sys2Proof.Machine

/-- Each pair is the bytes of an instruction and the instruction they decode to, with nothing left over. -/
abbrev DecodesAll (rows : List (List Byte × Instr)) : Prop :=
  ∀ r ∈ rows, (match decode r.1 with | .ok (i, rest) => some (i, rest) | .error _ => none) = some (r.2, [])

/-- A state after reset but for the registers, P given as a byte, PC and the listed bytes of memory. -/
def machine (a x y sp p : Byte) (pc : Addr) (cells : List (Nat × Byte)) : State :=
  { State.reset with
    a := a, x := x, y := y, sp := sp, pc := pc, p := Status.ofByte p
    mem := cells.foldl (fun m c => m.set c.1 c.2) [] }

/-- The next state, if there is one. -/
def nextOf : Result → Option State
  | .next t => some t
  | .fault _ => none
  | .refused _ => none

theorem next_of_isSome {r : Result} (h : (nextOf r).isSome = true) : ∃ t, r = .next t := by
  match r, h with
  | .next t, _ => exact ⟨t, rfl⟩

/-- `A X Y S P PC` after one step, then the bytes at the watched addresses. -/
def after (s : State) (watched : List Nat) : Option (List Nat) :=
  (nextOf (step s)).map fun t =>
    [t.a.toNat, t.x.toNat, t.y.toNat, t.sp.toNat, (t.p.image false).toNat, t.pc.toNat] ++
      watched.map fun a => (t.mem.get a).toNat

/-! Decoding: the bytes of spec/30_encoding.md R84 (opcode first, then zero-page, immediate or offset byte 0x34, or the two
bytes of 0x1234, low byte first), one line per mnemonic, every row of the table. -/

theorem test_decode_loads_and_stores : DecodesAll
  [([0xA9, 0x34], .ldaImm 0x34), ([0xAD, 0x34, 0x12], .ldaAbs 0x1234), ([0xA5, 0x34], .ldaZp 0x34),
   ([0xA1, 0x34], .ldaIndX 0x34), ([0xB1, 0x34], .ldaIndY 0x34), ([0xB5, 0x34], .ldaZpX 0x34),
   ([0xBD, 0x34, 0x12], .ldaAbsX 0x1234), ([0xB9, 0x34, 0x12], .ldaAbsY 0x1234),
   ([0xA2, 0x34], .ldxImm 0x34), ([0xAE, 0x34, 0x12], .ldxAbs 0x1234), ([0xA6, 0x34], .ldxZp 0x34),
   ([0xBE, 0x34, 0x12], .ldxAbsY 0x1234), ([0xB6, 0x34], .ldxZpY 0x34),
   ([0xA0, 0x34], .ldyImm 0x34), ([0xAC, 0x34, 0x12], .ldyAbs 0x1234), ([0xA4, 0x34], .ldyZp 0x34),
   ([0xB4, 0x34], .ldyZpX 0x34), ([0xBC, 0x34, 0x12], .ldyAbsX 0x1234),
   ([0x8D, 0x34, 0x12], .staAbs 0x1234), ([0x85, 0x34], .staZp 0x34), ([0x81, 0x34], .staIndX 0x34),
   ([0x91, 0x34], .staIndY 0x34), ([0x95, 0x34], .staZpX 0x34), ([0x9D, 0x34, 0x12], .staAbsX 0x1234),
   ([0x99, 0x34, 0x12], .staAbsY 0x1234),
   ([0x8E, 0x34, 0x12], .stxAbs 0x1234), ([0x86, 0x34], .stxZp 0x34), ([0x96, 0x34], .stxZpY 0x34),
   ([0x8C, 0x34, 0x12], .styAbs 0x1234), ([0x84, 0x34], .styZp 0x34), ([0x94, 0x34], .styZpX 0x34)] := by decide

theorem test_decode_transfers : DecodesAll
  [([0xAA], .tax),
   ([0xA8], .tay),
   ([0xBA], .tsx),
   ([0x8A], .txa),
   ([0x9A], .txs),
   ([0x98], .tya)] := by decide

theorem test_decode_add_and_subtract : DecodesAll
  [([0x69, 0x34], .adcImm 0x34), ([0x6D, 0x34, 0x12], .adcAbs 0x1234), ([0x65, 0x34], .adcZp 0x34),
   ([0x61, 0x34], .adcIndX 0x34), ([0x71, 0x34], .adcIndY 0x34), ([0x75, 0x34], .adcZpX 0x34),
   ([0x7D, 0x34, 0x12], .adcAbsX 0x1234), ([0x79, 0x34, 0x12], .adcAbsY 0x1234),
   ([0xE9, 0x34], .sbcImm 0x34), ([0xED, 0x34, 0x12], .sbcAbs 0x1234), ([0xE5, 0x34], .sbcZp 0x34),
   ([0xE1, 0x34], .sbcIndX 0x34), ([0xF1, 0x34], .sbcIndY 0x34), ([0xF5, 0x34], .sbcZpX 0x34),
   ([0xFD, 0x34, 0x12], .sbcAbsX 0x1234), ([0xF9, 0x34, 0x12], .sbcAbsY 0x1234)] := by decide

theorem test_decode_logic : DecodesAll
  [([0x29, 0x34], .andImm 0x34), ([0x2D, 0x34, 0x12], .andAbs 0x1234), ([0x25, 0x34], .andZp 0x34),
   ([0x21, 0x34], .andIndX 0x34), ([0x31, 0x34], .andIndY 0x34), ([0x35, 0x34], .andZpX 0x34),
   ([0x3D, 0x34, 0x12], .andAbsX 0x1234), ([0x39, 0x34, 0x12], .andAbsY 0x1234),
   ([0x09, 0x34], .oraImm 0x34), ([0x0D, 0x34, 0x12], .oraAbs 0x1234), ([0x05, 0x34], .oraZp 0x34),
   ([0x01, 0x34], .oraIndX 0x34), ([0x11, 0x34], .oraIndY 0x34), ([0x15, 0x34], .oraZpX 0x34),
   ([0x1D, 0x34, 0x12], .oraAbsX 0x1234), ([0x19, 0x34, 0x12], .oraAbsY 0x1234),
   ([0x49, 0x34], .eorImm 0x34), ([0x4D, 0x34, 0x12], .eorAbs 0x1234), ([0x45, 0x34], .eorZp 0x34),
   ([0x41, 0x34], .eorIndX 0x34), ([0x51, 0x34], .eorIndY 0x34), ([0x55, 0x34], .eorZpX 0x34),
   ([0x5D, 0x34, 0x12], .eorAbsX 0x1234), ([0x59, 0x34, 0x12], .eorAbsY 0x1234),
   ([0x2C, 0x34, 0x12], .bitAbs 0x1234), ([0x24, 0x34], .bitZp 0x34)] := by decide

theorem test_decode_compares : DecodesAll
  [([0xC9, 0x34], .cmpImm 0x34), ([0xCD, 0x34, 0x12], .cmpAbs 0x1234), ([0xC5, 0x34], .cmpZp 0x34),
   ([0xC1, 0x34], .cmpIndX 0x34), ([0xD1, 0x34], .cmpIndY 0x34), ([0xD5, 0x34], .cmpZpX 0x34),
   ([0xDD, 0x34, 0x12], .cmpAbsX 0x1234), ([0xD9, 0x34, 0x12], .cmpAbsY 0x1234),
   ([0xE0, 0x34], .cpxImm 0x34), ([0xEC, 0x34, 0x12], .cpxAbs 0x1234), ([0xE4, 0x34], .cpxZp 0x34),
   ([0xC0, 0x34], .cpyImm 0x34), ([0xCC, 0x34, 0x12], .cpyAbs 0x1234), ([0xC4, 0x34], .cpyZp 0x34)] := by decide

theorem test_decode_shifts : DecodesAll
  [([0x0E, 0x34, 0x12], .aslAbs 0x1234), ([0x06, 0x34], .aslZp 0x34), ([0x0A], .aslAcc), ([0x16, 0x34], .aslZpX 0x34),
   ([0x1E, 0x34, 0x12], .aslAbsX 0x1234),
   ([0x4E, 0x34, 0x12], .lsrAbs 0x1234), ([0x46, 0x34], .lsrZp 0x34), ([0x4A], .lsrAcc), ([0x56, 0x34], .lsrZpX 0x34),
   ([0x5E, 0x34, 0x12], .lsrAbsX 0x1234),
   ([0x2E, 0x34, 0x12], .rolAbs 0x1234), ([0x26, 0x34], .rolZp 0x34), ([0x2A], .rolAcc), ([0x36, 0x34], .rolZpX 0x34),
   ([0x3E, 0x34, 0x12], .rolAbsX 0x1234),
   ([0x6E, 0x34, 0x12], .rorAbs 0x1234), ([0x66, 0x34], .rorZp 0x34), ([0x6A], .rorAcc), ([0x76, 0x34], .rorZpX 0x34),
   ([0x7E, 0x34, 0x12], .rorAbsX 0x1234)] := by decide

theorem test_decode_increments : DecodesAll
  [([0xEE, 0x34, 0x12], .incAbs 0x1234), ([0xE6, 0x34], .incZp 0x34), ([0xF6, 0x34], .incZpX 0x34),
   ([0xFE, 0x34, 0x12], .incAbsX 0x1234),
   ([0xCE, 0x34, 0x12], .decAbs 0x1234), ([0xC6, 0x34], .decZp 0x34), ([0xD6, 0x34], .decZpX 0x34),
   ([0xDE, 0x34, 0x12], .decAbsX 0x1234),
   ([0xE8], .inx),
   ([0xC8], .iny),
   ([0xCA], .dex),
   ([0x88], .dey)] := by decide

theorem test_decode_branches : DecodesAll
  [([0x90, 0x34], .bcc 0x34),
   ([0xB0, 0x34], .bcs 0x34),
   ([0xF0, 0x34], .beq 0x34),
   ([0x30, 0x34], .bmi 0x34),
   ([0xD0, 0x34], .bne 0x34),
   ([0x10, 0x34], .bpl 0x34),
   ([0x50, 0x34], .bvc 0x34),
   ([0x70, 0x34], .bvs 0x34)] := by decide

theorem test_decode_jumps : DecodesAll
  [([0x4C, 0x34, 0x12], .jmpAbs 0x1234), ([0x6C, 0x34, 0x12], .jmpInd 0x1234),
   ([0x20, 0x34, 0x12], .jsr 0x1234),
   ([0x60], .rts)] := by decide

theorem test_decode_stack_and_flags : DecodesAll
  [([0x48], .pha),
   ([0x08], .php),
   ([0x68], .pla),
   ([0x28], .plp),
   ([0x18], .clc),
   ([0xD8], .cld),
   ([0x58], .cli),
   ([0xB8], .clv),
   ([0x38], .sec),
   ([0xF8], .sed),
   ([0x78], .sei),
   ([0xEA], .nop),
   ([0x00], .brk),
   ([0x40], .rti)] := by decide

/-! One step: vectors of spec/95_test_vectors.md, Part 2, by their ids. `A X Y S P PC`, then the bytes watched; P as pushed
with bit 4 = 0. -/

theorem test_LDA_AM3 : after (machine 0x00 0x20 0x00 0xFF 0x20 0x0200
      [(0x0010, 0x77), (0x0110, 0x99), (0x0200, 0xB5), (0x0201, 0xF0)])
    [] = some [0x77, 0x20, 0x00, 0xFF, 0x20, 0x0202] := by decide
theorem test_LDA_AM10 : after (machine 0x00 0x01 0x00 0xFF 0x20 0x0200
      [(0x00FF, 0x34), (0x0000, 0x12), (0x0100, 0x99), (0x1234, 0xC3), (0x0200, 0xA1), (0x0201, 0xFE)])
    [] = some [0xC3, 0x01, 0x00, 0xFF, 0xA0, 0x0202] := by decide
theorem test_STX_AM4 : after (machine 0x00 0x11 0x02 0xFF 0x20 0x0200 [(0x0200, 0x96), (0x0201, 0xFF)])
    [0x0001] = some [0x00, 0x11, 0x02, 0xFF, 0x20, 0x0202, 0x11] := by decide
theorem test_STA_AM14 : after (machine 0x42 0x00 0x10 0xFF 0x20 0x0200
      [(0x0020, 0xF8), (0x0021, 0x02), (0x0200, 0x91), (0x0201, 0x20)])
    [0x0308] = some [0x42, 0x00, 0x10, 0xFF, 0x20, 0x0202, 0x42] := by decide
theorem test_STA_AM17 : after (machine 0x5A 0x00 0x00 0xFF 0x20 0xFFFE
      [(0x0000, 0x12), (0xFFFE, 0x8D), (0xFFFF, 0x34)])
    [0x1234] = some [0x5A, 0x00, 0x00, 0xFF, 0x20, 0x0001, 0x5A] := by decide
theorem test_LDX_LS2 : after (machine 0x00 0x00 0xF5 0xFF 0x20 0x0200
      [(0x0005, 0x80), (0x0200, 0xB6), (0x0201, 0x10)])
    [] = some [0x00, 0x80, 0xF5, 0xFF, 0xA0, 0x0202] := by decide
theorem test_LDY_LS4 : after (machine 0x00 0x01 0x44 0xFF 0x20 0x0200
      [(0x0301, 0x00), (0x0200, 0xBC), (0x0201, 0x00), (0x0202, 0x03)])
    [] = some [0x00, 0x01, 0x00, 0xFF, 0x22, 0x0203] := by decide
theorem test_STY_LS9 : after (machine 0x00 0x05 0x22 0xFF 0x20 0x0200 [(0x0200, 0x94), (0x0201, 0x10)])
    [0x0015] = some [0x00, 0x05, 0x22, 0xFF, 0x20, 0x0202, 0x22] := by decide
theorem test_TAX_LS11 : after (machine 0x00 0x05 0x00 0xFF 0x20 0x0200 [(0x0200, 0xAA)])
    [] = some [0x00, 0x00, 0x00, 0xFF, 0x22, 0x0201] := by decide
theorem test_TAY_LS12 : after (machine 0x80 0x00 0x00 0xFF 0x20 0x0200 [(0x0200, 0xA8)])
    [] = some [0x80, 0x00, 0x80, 0xFF, 0xA0, 0x0201] := by decide
theorem test_TXA_LS13 : after (machine 0x11 0x00 0x00 0xFF 0x20 0x0200 [(0x0200, 0x8A)])
    [] = some [0x00, 0x00, 0x00, 0xFF, 0x22, 0x0201] := by decide
theorem test_TYA_LS14 : after (machine 0x00 0x00 0xFF 0xFF 0x20 0x0200 [(0x0200, 0x98)])
    [] = some [0xFF, 0x00, 0xFF, 0xFF, 0xA0, 0x0201] := by decide
theorem test_TSX_LS15 : after (machine 0x00 0x00 0x00 0x80 0x20 0x0200 [(0x0200, 0xBA)])
    [] = some [0x00, 0x80, 0x00, 0x80, 0xA0, 0x0201] := by decide
theorem test_TXS_LS16 : after (machine 0x00 0x80 0x00 0xFF 0x22 0x0200 [(0x0200, 0x9A)])
    [] = some [0x00, 0x80, 0x00, 0x80, 0x22, 0x0201] := by decide
theorem test_ADC_AR8 : after (machine 0x80 0x00 0x00 0xFF 0x20 0x0200 [(0x0200, 0x69), (0x0201, 0xFF)])
    [] = some [0x7F, 0x00, 0x00, 0xFF, 0x61, 0x0202] := by decide
theorem test_SBC_AR16 : after (machine 0x50 0x00 0x00 0xFF 0x21 0x0200 [(0x0200, 0xE9), (0x0201, 0xB0)])
    [] = some [0xA0, 0x00, 0x00, 0xFF, 0xE0, 0x0202] := by decide
theorem test_AND_LC3 : after (machine 0xFF 0x00 0x02 0xFF 0x20 0x0200
      [(0x0302, 0x81), (0x0200, 0x39), (0x0201, 0x00), (0x0202, 0x03)])
    [] = some [0x81, 0x00, 0x02, 0xFF, 0xA0, 0x0203] := by decide
theorem test_ORA_LC6 : after (machine 0x01 0x10 0x00 0xFF 0x20 0x0200
      [(0x0010, 0x00), (0x0011, 0x03), (0x0300, 0x02), (0x0200, 0x01), (0x0201, 0x00)])
    [] = some [0x03, 0x10, 0x00, 0xFF, 0x20, 0x0202] := by decide
theorem test_EOR_LC7 : after (machine 0xAA 0x00 0x00 0xFF 0x20 0x0200 [(0x0200, 0x49), (0x0201, 0xFF)])
    [] = some [0x55, 0x00, 0x00, 0xFF, 0x20, 0x0202] := by decide
theorem test_BIT_LC10 : after (machine 0x01 0x00 0x00 0xFF 0x20 0x0200
      [(0x0010, 0xC0), (0x0200, 0x24), (0x0201, 0x10)])
    [] = some [0x01, 0x00, 0x00, 0xFF, 0xE2, 0x0202] := by decide
theorem test_BIT_LC11 : after (machine 0xFF 0x00 0x00 0xFF 0xE0 0x0200
      [(0x0300, 0x3F), (0x0200, 0x2C), (0x0201, 0x00), (0x0202, 0x03)])
    [] = some [0xFF, 0x00, 0x00, 0xFF, 0x20, 0x0203] := by decide
theorem test_CMP_LC15 : after (machine 0x00 0x00 0x00 0xFF 0x20 0x0200 [(0x0200, 0xC9), (0x0201, 0x01)])
    [] = some [0x00, 0x00, 0x00, 0xFF, 0xA0, 0x0202] := by decide
theorem test_CMP_LC18 : after (machine 0x05 0x01 0x00 0xFF 0x20 0x0200
      [(0x0300, 0x05), (0x0200, 0xDD), (0x0201, 0xFF), (0x0202, 0x02)])
    [] = some [0x05, 0x01, 0x00, 0xFF, 0x23, 0x0203] := by decide
theorem test_CPX_LC20 : after (machine 0x00 0x03 0x00 0xFF 0x20 0x0200
      [(0x0010, 0x04), (0x0200, 0xE4), (0x0201, 0x10)])
    [] = some [0x00, 0x03, 0x00, 0xFF, 0xA0, 0x0202] := by decide
theorem test_CPY_LC22 : after (machine 0x00 0x00 0x80 0xFF 0x20 0x0200
      [(0x0300, 0x7F), (0x0200, 0xCC), (0x0201, 0x00), (0x0202, 0x03)])
    [] = some [0x00, 0x00, 0x80, 0xFF, 0x21, 0x0203] := by decide
theorem test_ASL_SH1 : after (machine 0x81 0x00 0x00 0xFF 0x20 0x0200 [(0x0200, 0x0A)])
    [] = some [0x02, 0x00, 0x00, 0xFF, 0x21, 0x0201] := by decide
theorem test_ASL_SH4 : after (machine 0x00 0x01 0x00 0xFF 0x20 0x0200
      [(0x0301, 0xC0), (0x0200, 0x1E), (0x0201, 0x00), (0x0202, 0x03)])
    [0x0301] = some [0x00, 0x01, 0x00, 0xFF, 0xA1, 0x0203, 0x80] := by decide
theorem test_LSR_SH5 : after (machine 0x01 0x00 0x00 0xFF 0xA0 0x0200 [(0x0200, 0x4A)])
    [] = some [0x00, 0x00, 0x00, 0xFF, 0x23, 0x0201] := by decide
theorem test_LSR_SH6 : after (machine 0x00 0x00 0x00 0xFF 0x20 0x0200
      [(0x0300, 0xFE), (0x0200, 0x4E), (0x0201, 0x00), (0x0202, 0x03)])
    [0x0300] = some [0x00, 0x00, 0x00, 0xFF, 0x20, 0x0203, 0x7F] := by decide
theorem test_ROL_SH8 : after (machine 0x80 0x00 0x00 0xFF 0x21 0x0200 [(0x0200, 0x2A)])
    [] = some [0x01, 0x00, 0x00, 0xFF, 0x21, 0x0201] := by decide
theorem test_ROL_SH10 : after (machine 0x00 0x01 0x00 0xFF 0x21 0x0200
      [(0x0011, 0x55), (0x0200, 0x36), (0x0201, 0x10)])
    [0x0011] = some [0x00, 0x01, 0x00, 0xFF, 0xA0, 0x0202, 0xAB] := by decide
theorem test_ROR_SH12 : after (machine 0x01 0x00 0x00 0xFF 0x21 0x0200 [(0x0200, 0x6A)])
    [] = some [0x80, 0x00, 0x00, 0xFF, 0xA1, 0x0201] := by decide
theorem test_ROR_SH14 : after (machine 0x00 0x00 0x00 0xFF 0x21 0x0200
      [(0x0010, 0x00), (0x0200, 0x66), (0x0201, 0x10)])
    [0x0010] = some [0x00, 0x00, 0x00, 0xFF, 0xA0, 0x0202, 0x80] := by decide
theorem test_INC_SH16 : after (machine 0x00 0x00 0x00 0xFF 0x61 0x0200
      [(0x0010, 0xFF), (0x0200, 0xE6), (0x0201, 0x10)])
    [0x0010] = some [0x00, 0x00, 0x00, 0xFF, 0x63, 0x0202, 0x00] := by decide
theorem test_DEC_SH20 : after (machine 0x00 0x00 0x00 0xFF 0x20 0x0200
      [(0x0010, 0x00), (0x0200, 0xC6), (0x0201, 0x10)])
    [0x0010] = some [0x00, 0x00, 0x00, 0xFF, 0xA0, 0x0202, 0xFF] := by decide
theorem test_INX_SH24 : after (machine 0x00 0xFF 0x00 0xFF 0x20 0x0200 [(0x0200, 0xE8)])
    [] = some [0x00, 0x00, 0x00, 0xFF, 0x22, 0x0201] := by decide
theorem test_INY_SH25 : after (machine 0x00 0x00 0x7F 0xFF 0x20 0x0200 [(0x0200, 0xC8)])
    [] = some [0x00, 0x00, 0x80, 0xFF, 0xA0, 0x0201] := by decide
theorem test_DEX_SH26 : after (machine 0x00 0x00 0x00 0xFF 0x20 0x0200 [(0x0200, 0xCA)])
    [] = some [0x00, 0xFF, 0x00, 0xFF, 0xA0, 0x0201] := by decide
theorem test_DEY_SH27 : after (machine 0x00 0x00 0x01 0xFF 0x20 0x0200 [(0x0200, 0x88)])
    [] = some [0x00, 0x00, 0x00, 0xFF, 0x22, 0x0201] := by decide
theorem test_BCC_BR11 : after (machine 0x00 0x00 0x00 0xFF 0x20 0xFFF8 [(0xFFF8, 0x90), (0xFFF9, 0x10)])
    [] = some [0x00, 0x00, 0x00, 0xFF, 0x20, 0x000A] := by decide
theorem test_BCS_BR12 : after (machine 0x00 0x00 0x00 0xFF 0x21 0x0010 [(0x0010, 0xB0), (0x0011, 0x80)])
    [] = some [0x00, 0x00, 0x00, 0xFF, 0x21, 0xFF92] := by decide
theorem test_BEQ_BR3 : after (machine 0x00 0x00 0x00 0xFF 0x22 0x06F0 [(0x06F0, 0xF0), (0x06F1, 0x7F)])
    [] = some [0x00, 0x00, 0x00, 0xFF, 0x22, 0x0771] := by decide
theorem test_BMI_BR6 : after (machine 0x00 0x00 0x00 0xFF 0xA0 0x0600 [(0x0600, 0x30), (0x0601, 0x80)])
    [] = some [0x00, 0x00, 0x00, 0xFF, 0xA0, 0x0582] := by decide
theorem test_BNE_BR1 : after (machine 0x00 0x00 0x00 0xFF 0x20 0x0610 [(0x0610, 0xD0), (0x0611, 0xFB)])
    [] = some [0x00, 0x00, 0x00, 0xFF, 0x20, 0x060D] := by decide
theorem test_BPL_BR7 : after (machine 0x00 0x00 0x00 0xFF 0x20 0x0200 [(0x0200, 0x10), (0x0201, 0x10)])
    [] = some [0x00, 0x00, 0x00, 0xFF, 0x20, 0x0212] := by decide
theorem test_BVC_BR8 : after (machine 0x00 0x00 0x00 0xFF 0x20 0x0200 [(0x0200, 0x50), (0x0201, 0x02)])
    [] = some [0x00, 0x00, 0x00, 0xFF, 0x20, 0x0204] := by decide
theorem test_BVS_BR9 : after (machine 0x00 0x00 0x00 0xFF 0x20 0x0200 [(0x0200, 0x70), (0x0201, 0x02)])
    [] = some [0x00, 0x00, 0x00, 0xFF, 0x20, 0x0202] := by decide
theorem test_JMP_BR13 : after (machine 0x00 0x00 0x00 0xFF 0x20 0x0200
      [(0x0200, 0x4C), (0x0201, 0x34), (0x0202, 0x12)])
    [] = some [0x00, 0x00, 0x00, 0xFF, 0x20, 0x1234] := by decide
theorem test_JMP_BR14 : after (machine 0x00 0x00 0x00 0xFF 0x20 0x0200
      [(0x0320, 0x78), (0x0321, 0x56), (0x0200, 0x6C), (0x0201, 0x20), (0x0202, 0x03)])
    [] = some [0x00, 0x00, 0x00, 0xFF, 0x20, 0x5678] := by decide
theorem test_JSR_BR15 : after (machine 0x00 0x00 0x00 0xFF 0x20 0x0600
      [(0x0600, 0x20), (0x0601, 0x00), (0x0602, 0x90)])
    [0x01FF, 0x01FE] = some [0x00, 0x00, 0x00, 0xFD, 0x20, 0x9000, 0x06, 0x02] := by decide
theorem test_JSR_BR17 : after (machine 0x00 0x00 0x00 0x00 0x20 0x12FE
      [(0x12FE, 0x20), (0x12FF, 0x00), (0x1300, 0x90)])
    [0x0100, 0x01FF] = some [0x00, 0x00, 0x00, 0xFE, 0x20, 0x9000, 0x13, 0x00] := by decide
theorem test_RTS_BR16 : after (machine 0x00 0x00 0x00 0xFD 0x20 0x9000
      [(0x01FE, 0x02), (0x01FF, 0x06), (0x9000, 0x60)])
    [] = some [0x00, 0x00, 0x00, 0xFF, 0x20, 0x0603] := by decide
theorem test_PHA_ST1 : after (machine 0x7E 0x00 0x00 0xFF 0x20 0x0200 [(0x0200, 0x48)])
    [0x01FF] = some [0x7E, 0x00, 0x00, 0xFE, 0x20, 0x0201, 0x7E] := by decide
theorem test_PHP_ST3 : after (machine 0x00 0x00 0x00 0x00 0x20 0x0200 [(0x0200, 0x08)])
    [0x0100] = some [0x00, 0x00, 0x00, 0xFF, 0x20, 0x0201, 0x30] := by decide
theorem test_PLA_ST6 : after (machine 0x00 0x00 0x00 0xFF 0x20 0x0200 [(0x0100, 0x80), (0x0200, 0x68)])
    [] = some [0x80, 0x00, 0x00, 0x00, 0xA0, 0x0201] := by decide
theorem test_PLP_ST9 : after (machine 0x00 0x00 0x00 0xFE 0x20 0x0200 [(0x01FF, 0x30), (0x0200, 0x28)])
    [] = some [0x00, 0x00, 0x00, 0xFF, 0x20, 0x0201] := by decide
theorem test_CLC_ST11 : after (machine 0x00 0x00 0x00 0xFF 0xEF 0x0200 [(0x0200, 0x18)])
    [] = some [0x00, 0x00, 0x00, 0xFF, 0xEE, 0x0201] := by decide
theorem test_CLD_ST12 : after (machine 0x00 0x00 0x00 0xFF 0xEF 0x0200 [(0x0200, 0xD8)])
    [] = some [0x00, 0x00, 0x00, 0xFF, 0xE7, 0x0201] := by decide
theorem test_CLI_ST13 : after (machine 0x00 0x00 0x00 0xFF 0xEF 0x0200 [(0x0200, 0x58)])
    [] = some [0x00, 0x00, 0x00, 0xFF, 0xEB, 0x0201] := by decide
theorem test_CLV_ST14 : after (machine 0x00 0x00 0x00 0xFF 0xEF 0x0200 [(0x0200, 0xB8)])
    [] = some [0x00, 0x00, 0x00, 0xFF, 0xAF, 0x0201] := by decide
theorem test_SEC_ST15 : after (machine 0x00 0x00 0x00 0xFF 0x20 0x0200 [(0x0200, 0x38)])
    [] = some [0x00, 0x00, 0x00, 0xFF, 0x21, 0x0201] := by decide
theorem test_SED_ST16 : after (machine 0x00 0x00 0x00 0xFF 0x20 0x0200 [(0x0200, 0xF8)])
    [] = some [0x00, 0x00, 0x00, 0xFF, 0x28, 0x0201] := by decide
theorem test_SEI_ST17 : after (machine 0x00 0x00 0x00 0xFF 0x20 0x0200 [(0x0200, 0x78)])
    [] = some [0x00, 0x00, 0x00, 0xFF, 0x24, 0x0201] := by decide
theorem test_NOP_ST18 : after (machine 0x01 0x00 0x00 0xFF 0xA0 0x0200 [(0x0200, 0xEA)])
    [] = some [0x01, 0x00, 0x00, 0xFF, 0xA0, 0x0201] := by decide
theorem test_BRK_ST19 : after (machine 0x00 0x00 0x00 0xFF 0x23 0x0600
      [(0xFFFE, 0x00), (0xFFFF, 0x90), (0x0600, 0x00), (0x0601, 0xFF)])
    [0x01FF, 0x01FE, 0x01FD] = some [0x00, 0x00, 0x00, 0xFC, 0x27, 0x9000, 0x06, 0x02, 0x33] := by decide
theorem test_BRK_ST20 : after (machine 0x00 0x00 0x00 0x01 0xAC 0x02FF
      [(0xFFFE, 0x34), (0xFFFF, 0x12), (0x02FF, 0x00)])
    [0x0101, 0x0100, 0x01FF] = some [0x00, 0x00, 0x00, 0xFE, 0xAC, 0x1234, 0x03, 0x01, 0xBC] := by decide
theorem test_RTI_ST21 : after (machine 0x00 0x00 0x00 0xFC 0x24 0x9000
      [(0x01FD, 0x33), (0x01FE, 0x02), (0x01FF, 0x06), (0x9000, 0x40)])
    [] = some [0x00, 0x00, 0x00, 0xFF, 0x23, 0x0602] := by decide

/-- A machine with another configuration. -/
def configured (s : State) (c : Config) : State := { s with config := c }

/-- Vectors DE3 and DE11, `DECIMAL_POLICY = nmos`. -/
theorem test_ADC_DE3 : after (configured (machine 0x50 0x00 0x00 0xFF 0x28 0x0200 [(0x0200, 0x69), (0x0201, 0x50)])
    { Config.default with decimalPolicy := .nmos }) [] = some [0x00, 0x00, 0x00, 0xFF, 0xE9, 0x0202] := by decide
theorem test_SBC_DE11 : after (configured (machine 0x00 0x00 0x00 0xFF 0x29 0x0200 [(0x0200, 0xE9), (0x0201, 0x01)])
    { Config.default with decimalPolicy := .nmos }) [] = some [0x99, 0x00, 0x00, 0xFF, 0xA8, 0x0202] := by decide

/-- Vectors AM5 and BR3: the cycles of a page crossing. -/
theorem test_cycles_AM5 : (machine 0x00 0x20 0x00 0xFF 0x20 0x0200 []).cycles (.ldaAbsX 0x12F0) = 5 := by decide
theorem test_cycles_BR3 : (machine 0x00 0x00 0x00 0xFF 0x22 0x06F0 []).cycles (.beq 0x7F) = 4 := by decide

/-- Vectors PV1, PV2, PV3: JMP ($03FF) under the default, `carry` and `no_carry`. -/
def pointerAtPageEnd : State :=
  machine 0x00 0x00 0x00 0xFF 0x20 0x0200
    [(0x0200, 0x6C), (0x0201, 0xFF), (0x0202, 0x03), (0x03FF, 0x34), (0x0400, 0x12), (0x0300, 0x56)]

theorem test_JMP_PV1_to_PV3 : step pointerAtPageEnd = .refused .jmpIndirectWrap ∧
    after (configured pointerAtPageEnd { Config.default with jmpIndWrap := .carry }) [] =
      some [0x00, 0x00, 0x00, 0xFF, 0x20, 0x1234] ∧
    after (configured pointerAtPageEnd { Config.default with jmpIndWrap := .noCarry }) [] =
      some [0x00, 0x00, 0x00, 0xFF, 0x20, 0x5634] := ⟨rfl, by decide, by decide⟩

/-! The host's two questions, on one word. -/

theorem test_table_word : decodeTableWord 24 0x1234AD = some (.ldaAbs 0x1234) := by decide
theorem test_fetch_word : after (State.reset.withFetchWord 16 0x80A9) [] =
    some [0x80, 0x00, 0x00, 0xFD, 0xA4, 0x0002] := by decide

/-! Configurations: a good one, and one that each check of WellFormed.lean refuses. Every instruction is well formed. -/

/-- The default configuration with this map. -/
def mapped (regions : List Region) : Config := { Config.default with memoryMap := regions }

theorem test_config_good :
    (mapped [⟨0xFFFA, 0xFFFF, .rom⟩, ⟨0x8000, 0xFFF9, .device true⟩]).wellFormed = true := by decide
theorem test_config_reversed_region : (mapped [⟨5, 4, .rom⟩]).wellFormed = false := by decide
theorem test_config_beyond_space : (mapped [⟨0xFFFF, 0x10000, .rom⟩]).wellFormed = false := by decide
theorem test_config_beyond_um6507_space :
    { mapped [⟨0, 0x2000, .rom⟩] with variant := .um6507 }.wellFormed = false := by decide
theorem test_config_overlap : (mapped [⟨0, 9, .rom⟩, ⟨9, 12, .unmapped⟩]).wellFormed = false := by decide
theorem test_config_so_without_pin :
    { Config.default with variant := .um6507, soUsed := true }.wellFormed = false := by decide
theorem test_instruction_well_formed : (Instr.adcAbs 0xFFFF).wellFormed = true := by decide

/-! ## Witnesses: for each obligation with hypotheses, a state and operands that meet them, clause by clause. -/

/-- Nothing queued, every pin inactive. -/
def quiet : Inputs := ⟨.high, .high, .high, false, false, false, [], []⟩

/-- The environment does this at the next boundary. -/
def withPins (s : State) (e : Inputs) : State := { s with inputs := [e] }

/-- A machine with this instruction at 0x0200, all else zero but S = 0xFF and P.I as in `p`. -/
def running (p : Byte) (bytes : List Byte) : State :=
  machine 0x00 0x00 0x00 0xFF p 0x0200 (bytes.zipIdx.map fun b => (0x0200 + b.2, b.1))

theorem no_device {s : State} (h : s.config.memoryMap = []) (a : Addr) : ¬ s.sideEffectAt a := by
  simp [State.sideEffectAt, State.kindAt, h, regionKind]
theorem no_push {s : State} (h : s.config.memoryMap = []) (n : Nat) : ¬ s.refusedPush n :=
  fun ⟨_, _, hk⟩ => no_device h _ hk
theorem no_pull {s : State} (h : s.config.memoryMap = []) (n : Nat) : ¬ s.refusedPull n :=
  fun ⟨_, _, hk⟩ => no_device h _ hk
theorem no_operand {s : State} (h : s.config.memoryMap = []) (m : MemMode) : ¬ s.sideEffectOperand m :=
  fun ⟨_, _, ha⟩ => no_device h _ ha
theorem no_source {s : State} (h : s.config.memoryMap = []) : ∀ src : Source, ¬ s.refusedSource src
  | .immediate _ => id
  | .memory m => fun hm => no_operand h m hm.2

/-! ### Encoding -/

theorem witness_DecodeOfEncode : (Instr.staIndY 0xFF).wellFormed = true := rfl
theorem witness_DecodedBytesAreTheEncoding : decode [0x6C, 0xFF, 0xFF, 0x00] = .ok (.jmpInd 0xFFFF, [0x00]) := rfl
theorem witness_OpcodeFixesMnemonicAndMode : (Instr.ldaImm 0x00).opcode = (Instr.ldaImm 0xFF).opcode := rfl
theorem witness_UnassignedOpcodesAreRefused_bytes :
    (0x02 : Byte) ∈ unassignedBytes ∧ (0xFF : Byte) ∈ unassignedBytes ∧ (0x00 : Byte) ∉ unassignedBytes ∧
      (0xFE : Byte) ∉ unassignedBytes := by decide
theorem witness_UnassignedOpcodesAreRefused_step : (running 0x20 [0xFF]).sample.event = .instruction ∧
    (running 0x20 [0xFF]).sample.applyEdge.opcodeByte ∈ unassignedBytes := by decide

/-! ### One step -/

theorem witness_StepRunsTheDecodedInstruction :
    let s := withPins (configured (running 0x20 [0xAD, 0x34, 0x12]) { Config.default with soUsed := true })
      { quiet with soEdge := true, soLate := true }
    s.sample.event = .instruction ∧
      decode ((List.range 3).map s.sample.applyEdge.fetchByte) = .ok (.ldaAbs 0x1234, []) := ⟨by decide, rfl⟩
theorem witness_StepRunsTheDecodedInstruction_quiet :
    let s := running 0x20 [0xEA]
    s.inputs = [] ∧ s.resLine = .high ∧ s.inReset = false ∧ s.rdyLine = .high ∧ s.nmiPending = false ∧
      s.irqLine = .high ∧ s.soEdge = false ∧ s.soLate = false ∧
      decode ((List.range 3).map { s with draws := s.draws + 1, dmaReads := [] }.fetchByte) = .ok (.nop, [0x00, 0x00]) :=
  ⟨rfl, rfl, rfl, rfl, rfl, rfl, rfl, rfl, rfl⟩

/-- RES low while every other input asks for something. -/
def heldState : State := withPins (running 0x20 [0xEA]) ⟨.low, .low, .low, true, true, true, [], []⟩
/-- RES just went high, with every other request pending. -/
def leavingReset : State := { withPins (running 0x20 [0xEA]) ⟨.high, .low, .low, true, true, true, [], []⟩ with inReset := true }
/-- RDY low, with an NMI and an IRQ waiting. -/
def haltedState : State := { withPins (running 0x20 [0xEA]) ⟨.high, .low, .low, true, false, false, [], []⟩ with nmiPending := true }
/-- An NMI edge and IRQ low. -/
def nmiState : State := withPins (running 0x20 [0xEA]) ⟨.high, .high, .low, true, false, false, [], []⟩
/-- IRQ low, I = 0. -/
def irqState : State := withPins (running 0x20 [0xEA]) ⟨.high, .high, .low, false, false, false, [], []⟩
/-- IRQ low, I = 1. -/
def maskedState : State := withPins (running 0x24 [0xEA]) ⟨.high, .high, .low, false, false, false, [], []⟩

/-- A DMA agent that writes 0x1234 twice since the last boundary, and a rom byte, and puts 0x77 under the coming operand. -/
def agentState : State :=
  withPins (configured (running 0x20 [0xAD, 0x00, 0x02]) { mapped [⟨0xE000, 0xFFFF, .rom⟩] with dmaAgent := true })
    { quiet with dma := [(0x1234, 0x55), (0xE000, 0x99), (0x1234, 0x66)], dmaReads := [(.operand, 0x77)] }

theorem test_agent_writes : agentState.sample.mem.get 0x1234 = 0x66 ∧ agentState.sample.mem.get 0xE000 = 0x00 := by decide
theorem test_agent_under_a_read : after agentState [] = some [0x77, 0x00, 0x00, 0xFF, 0x20, 0x0203] := by decide

theorem witness_InputsAndPriorityAtABoundary_queued :
    ∃ e rest, agentState.inputs = e :: rest ∧ agentState.mem.wf = true ∧ agentState.config.dmaAgent = true ∧
      agentState.kindAt 0x1234 = .ram ∧ agentState.kindAt 0xE000 ≠ .ram := ⟨_, _, rfl, by decide⟩
theorem witness_InputsAndPriorityAtABoundary_empty : (running 0x20 [0xEA]).inputs = [] := rfl
theorem witness_InputsAndPriorityAtABoundary_kept : haltedState.nmiPending = true ∧
    haltedState.sample.event ≠ .nmi ∧ haltedState.sample.event ≠ .reset ∧ ∃ t, step haltedState = .next t :=
  ⟨by decide, by decide, by decide, next_of_isSome (by decide)⟩
theorem witness_InputsAndPriorityAtABoundary_edge_kept :
    let s := configured heldState { Config.default with soUsed := true }
    s.sample.soEdge = true ∧ s.sample.event = .held ∧ ∃ t, step s = .next t :=
  ⟨by decide, by decide, next_of_isSome (by decide)⟩
theorem witness_InputsAndPriorityAtABoundary_held : heldState.sample.resLine = .low := by decide
theorem witness_InputsAndPriorityAtABoundary_reset :
    leavingReset.sample.resLine = .high ∧ leavingReset.inReset = true := by decide
theorem witness_InputsAndPriorityAtABoundary_halted :
    haltedState.sample.resLine = .high ∧ haltedState.inReset = false ∧ haltedState.sample.rdyLine = .low := by decide
theorem witness_InputsAndPriorityAtABoundary_nmi :
    nmiState.sample.resLine = .high ∧ nmiState.inReset = false ∧ nmiState.sample.rdyLine = .high ∧
      nmiState.config.variant.hasNmi = true ∧ nmiState.sample.nmiPending = true := by decide
theorem witness_InputsAndPriorityAtABoundary_irq :
    irqState.sample.resLine = .high ∧ irqState.inReset = false ∧ irqState.sample.rdyLine = .high ∧
      ¬(irqState.config.variant.hasNmi = true ∧ irqState.sample.nmiPending = true) ∧
      irqState.config.variant.hasIrq = true ∧ irqState.sample.irqLine = .low ∧ irqState.sample.seenMask = false := by
  decide
theorem witness_InputsAndPriorityAtABoundary_instruction :
    maskedState.sample.resLine = .high ∧ maskedState.inReset = false ∧ maskedState.sample.rdyLine = .high ∧
      ¬(maskedState.config.variant.hasNmi = true ∧ maskedState.sample.nmiPending = true) ∧
      ¬(maskedState.config.variant.hasIrq = true ∧ maskedState.sample.irqLine = .low ∧
        maskedState.sample.seenMask = false) := by decide
theorem witness_InterruptSequences_nmi : nmiState.mem.wf = true ∧ ¬ nmiState.refusedPush 3 ∧
    nmiState.sample.event = .nmi := ⟨by decide, no_push rfl 3, by decide⟩
theorem witness_InterruptSequences_irq : irqState.mem.wf = true ∧ ¬ irqState.refusedPush 3 ∧
    irqState.sample.event = .irq := ⟨by decide, no_push rfl 3, by decide⟩

/-- An IRQ with an S.O. edge before it and one inside it, at a part that uses the input. -/
def lateIrqState : State := withPins (configured (running 0x20 [0xEA]) { Config.default with soUsed := true })
  ⟨.high, .high, .low, false, true, true, [], []⟩

theorem witness_InterruptSequences_late : lateIrqState.mem.wf = true ∧ ¬ lateIrqState.refusedPush 3 ∧
    lateIrqState.sample.event = .irq ∧ lateIrqState.sample.soLate = true :=
  ⟨by decide, no_push rfl 3, by decide, by decide⟩
theorem test_edge_is_in_the_pushed_image : after lateIrqState [0x01FD] =
    some [0x00, 0x00, 0x00, 0xFC, 0x64, 0x0000, 0x60] := by decide

/-- A step of `s` runs `k` and completes. -/
abbrev Fetches (s : State) (k : Instr) : Prop :=
  s.sample.event = .instruction ∧ s.sample.applyEdge.fetched = some k ∧ (nextOf (step s)).isSome = true

/-- The default configuration with this latency. -/
def latency (l : IrqMaskLatency) : Config := { Config.default with irqMaskLatency := l }

theorem witness_MaskSeenAfterAnInstruction_nop :
    Fetches (running 0x20 [0xEA]) .nop ∧ Instr.nop.mnemonic ∉ [.cli, .sei, .plp] := by decide
theorem witness_MaskSeenAfterAnInstruction_new :
    Fetches (configured (running 0x24 [0x58]) (latency .new)) .cli := by decide
theorem witness_MaskSeenAfterAnInstruction_old :
    Fetches (configured (running 0x20 [0x78]) (latency .old)) .sei ∧ Instr.sei.mnemonic ∈ [.cli, .sei, .plp] := by decide
theorem witness_MaskSeenAfterAnInstruction_both :
    Fetches (configured (running 0x24 [0x28]) (latency .both)) .plp ∧ Instr.plp.mnemonic ∈ [.cli, .sei, .plp] := by
  decide
theorem witness_NothingRunsWhileResIsLow : heldState.sample.resLine = .low ∧ heldState.config.dmaAgent = false := by
  decide
theorem witness_ResetSequence : leavingReset.sample.resLine = .high ∧ leavingReset.inReset = true ∧
    leavingReset.config.dmaAgent = false := by decide
theorem witness_NoProgressWhileRdyIsLow : haltedState.sample.resLine = .high ∧ haltedState.inReset = false ∧
    haltedState.sample.rdyLine = .low ∧ haltedState.nmiPending = true ∧ haltedState.config.dmaAgent = false := by decide
theorem witness_Um6507TakesNoInterrupt :
    let s := withPins (configured (running 0x20 [0xEA]) { Config.default with variant := .um6507 })
      ⟨.high, .high, .low, true, true, true, [], []⟩
    s.wf = true ∧ s.config.variant = .um6507 := by decide
theorem witness_SetOverflowInput_late :
    let s := withPins (configured (running 0x20 [0xB8]) { Config.default with soUsed := true })
      { quiet with soLate := true }
    Fetches s .clv ∧ s.sample.soLate = true := by decide
theorem witness_SetOverflowInput_edge :
    let s := withPins (configured (running 0x20 [0xEA]) { Config.default with soUsed := true })
      { quiet with soEdge := true }
    Fetches s .nop ∧ Instr.nop.mnemonic ∉ [.adc, .sbc, .bit, .clv, .plp, .rti] ∧ s.sample.soEdge = true := by decide
theorem witness_SetOverflowInput_interrupt : lateIrqState.sample.event = .irq ∧ lateIrqState.sample.soLate = true ∧
    lateIrqState.sample.soEdge = true ∧ ∃ t, step lateIrqState = .next t :=
  ⟨by decide, by decide, by decide, next_of_isSome (by decide)⟩
theorem witness_SetOverflowInput_interrupt_unused : nmiState.sample.event = .nmi ∧ nmiState.wf = true ∧
    nmiState.soActive = false ∧ ∃ t, step nmiState = .next t :=
  ⟨by decide, by decide, by decide, next_of_isSome (by decide)⟩
theorem witness_SetOverflowInput_unused :
    let s := withPins (running 0x20 [0xEA]) { quiet with soEdge := true, soLate := true }
    Fetches s .nop ∧ Instr.nop.mnemonic ∉ [.adc, .sbc, .bit, .clv, .plp, .rti] ∧ s.wf = true ∧ s.soActive = false := by
  decide

/-! ### Invariants and whole-machine rules -/

theorem witness_StepKeepsTheInvariant :
    nmiState.wf = true ∧ ∃ t, step nmiState = .next t := ⟨by decide, next_of_isSome (by decide)⟩
theorem witness_StepKeepsConfiguration : ∃ t, step irqState = .next t := next_of_isSome (by decide)
theorem witness_EveryStepCompletes :
    let s := running 0x20 [0x20, 0x34, 0x12]
    (∀ a : Addr, ¬ s.sideEffectAt a) ∧ s.sample.applyEdge.opcodeByte ∉ unassignedBytes ∧
      (s.sample.applyEdge.opcodeByte = 0x6C → s.config.jmpIndWrap = .refuse → s.sample.applyEdge.fetchByte 1 ≠ 0xFF) ∧
      (s.sample.applyEdge.opcodeByte = 0x20 → ¬ s.underPushes) :=
  ⟨no_device rfl, by decide, by decide, fun _ => by unfold State.underPushes; decide⟩
theorem witness_EveryStepCompletes_indirect :
    let s := running 0x20 [0x6C, 0xFE, 0x02]
    (∀ a : Addr, ¬ s.sideEffectAt a) ∧ s.sample.applyEdge.opcodeByte = 0x6C ∧ s.config.jmpIndWrap = .refuse ∧
      s.sample.applyEdge.fetchByte 1 ≠ 0xFF := ⟨no_device rfl, by decide⟩
theorem witness_RegisterWriters :
    (∃ t, exec (.ldaImm 1) (running 0x20 []) = .next t ∧ t.a ≠ (running 0x20 []).a) ∧
    (∃ t, exec .rolAcc (running 0x21 []) = .next t ∧ t.a ≠ (running 0x21 []).a) ∧
    (∃ t, exec .tsx (running 0x20 []) = .next t ∧ t.x ≠ (running 0x20 []).x) ∧
    (∃ t, exec .dey (running 0x20 []) = .next t ∧ t.y ≠ (running 0x20 []).y) ∧
    ∃ t, exec .brk (running 0x20 []) = .next t ∧ t.sp ≠ (running 0x20 []).sp :=
  ⟨⟨_, rfl, by decide⟩, ⟨_, rfl, by decide⟩, ⟨_, rfl, by decide⟩, ⟨_, rfl, by decide⟩, ⟨_, rfl, by decide⟩⟩
theorem witness_FlagWriters :
    let s := running 0x20 []
    (∃ t, exec (.ldaImm 0x80) s = .next t ∧ t.p.n ≠ s.p.n) ∧ (∃ t, exec .sed s = .next t ∧ t.p.d ≠ s.p.d) ∧
    (∃ t, exec .brk s = .next t ∧ t.p.i ≠ s.p.i) ∧ (∃ t, exec .tax s = .next t ∧ t.p.z ≠ s.p.z) ∧
    (∃ t, exec (.cmpImm 0x00) s = .next t ∧ t.p.c ≠ s.p.c) ∧
    ∃ t, exec .clv (running 0x60 []) = .next t ∧ t.p.v ≠ (running 0x60 []).p.v :=
  ⟨⟨_, rfl, by decide⟩, ⟨_, rfl, by decide⟩, ⟨_, rfl, by decide⟩, ⟨_, rfl, by decide⟩, ⟨_, rfl, by decide⟩,
    ⟨_, rfl, by decide⟩⟩
theorem witness_OnlyStoresAndPushesWriteMemory : (∃ t, exec .pla (running 0x20 []) = .next t) ∧
    ¬ writesMemory Instr.pla.mnemonic := ⟨⟨_, rfl⟩, by unfold writesMemory; decide⟩

/-- Rom at 0xE000 to 0xFFFF, a device with side effects at 0xD000 to 0xDFFF, nothing at 0xC000 to 0xCFFF. -/
def board : Config := mapped [⟨0xE000, 0xFFFF, .rom⟩, ⟨0xD000, 0xDFFF, .device true⟩, ⟨0xC000, 0xCFFF, .unmapped⟩]

theorem witness_StepWritesRamOnly :
    let s := configured (running 0x20 [0x8D, 0x00, 0xE0]) board
    s.mem.wf = true ∧ (∃ t, step s = .next t) ∧ s.kindAt 0xE000 ≠ .ram :=
  ⟨by decide, next_of_isSome (by decide), by decide⟩
theorem witness_CanonicalMemoriesAreEqual :
    let m : Memory := [(0x0000, 0x01), (0xFFFF, 0xFF)]
    m.wf = true ∧ ∀ a, m.get a = m.get a := ⟨by decide, fun _ => rfl⟩
theorem witness_StoreIsSeenByTheNextRead :
    let s := configured (running 0x20 []) board
    s.mem.wf = true ∧ s.config.dmaAgent = false ∧ s.kindAt 0x0202 = .ram ∧ s.pc + BitVec.ofNat 16 2 = 0x0202 ∧
      s.phys 0x0202 ≠ s.phys 0x0203 ∧ s.kindAt 0xC000 ≠ .ram ∧ s.kindAt 0xFFFF ≠ .ram := by decide
theorem witness_Um6507SeesThirteenAddressBits :
    (configured (running 0x20 []) { Config.default with variant := .um6507 }).config.variant = .um6507 ∧
      (0xFFFC : Addr).toNat % 8192 = (0x1FFC : Addr).toNat % 8192 := by decide
theorem witness_DecimalFlagAffectsOnlyAddAndSubtract :
    (Instr.cmpImm 0x09).mnemonic ∉ [.adc, .sbc, .php, .brk] ∧ ∃ t, exec (.cmpImm 0x09) (running 0x28 []) = .next t :=
  ⟨by decide, _, rfl⟩

/-! ### Operands, loads, stores -/

theorem witness_OperandByte :
    let s := configured (running 0x20 []) board
    (s.kindAt (s.ea (.zeroPage 0xFF)) = .ram ∧ s.config.dmaAgent = false) ∧
      s.kindAt (s.ea (.absoluteX 0xFFFF)) = .rom := by decide
theorem witness_OperandByte_agent : agentState.kindAt (agentState.ea (.absolute 0x0200)) = .ram ∧
    agentState.config.dmaAgent = true := by decide
theorem witness_PageCrossingAndCycles :
    let s := machine 0x00 0x01 0x01 0xFF 0x23 0x0200 [(0x00FF, 0xFF)]
    (s.crossesPage (.absoluteX 0x12FF) = true ∧ s.crossesPage (.absoluteX 0x12FE) = false ∧
      s.crossesPage (.indirectIndexedY 0xFF) = true) ∧
    ((Instr.cmpIndY 0xFF).operand = .memory (.indirectIndexedY 0xFF) ∧ (Instr.cmpIndY 0xFF).mnemonic ∈ indexReaders) ∧
    (Instr.beq 0x80).operand = .relative 0x80 ∧
    (∀ rel, Instr.nop.operand ≠ .relative rel) ∧ Instr.nop.mnemonic ∉ indexReaders :=
  ⟨by decide, by decide, rfl, nofun, by decide⟩
theorem witness_Loads :
    let src : Source := .memory (.indirectIndexedY 0xFF)
    (Instr.ldaIndY 0xFF).operand = src.operand ∧ (Instr.ldaIndY 0xFF).mnemonic = .lda ∧
      ¬ (running 0x20 []).refusedSource src := ⟨rfl, rfl, no_source rfl _⟩
theorem witness_Loads_x :
    let src : Source := .immediate 0x80
    (Instr.ldxImm 0x80).operand = src.operand ∧ (Instr.ldxImm 0x80).mnemonic = .ldx ∧
      ¬ (running 0x20 []).refusedSource src := ⟨rfl, rfl, no_source rfl _⟩
theorem witness_Loads_y :
    let src : Source := .memory (.absolute 0xD000)
    (Instr.ldyAbs 0xD000).operand = src.operand ∧ (Instr.ldyAbs 0xD000).mnemonic = .ldy ∧
      ¬ (configured (running 0x20 []) board).refusedSource src := ⟨rfl, rfl, fun h => by cases h.1⟩
theorem witness_Stores :
    (running 0x20 []).mem.wf = true ∧ (Instr.staAbsX 0xFFFF).operand = .memory (.absoluteX 0xFFFF) ∧
      ¬ (running 0x20 []).refusedOperand (.absoluteX 0xFFFF) ∧ (Instr.staAbsX 0xFFFF).mnemonic = .sta :=
  ⟨by decide, rfl, fun h => no_operand rfl _ h.2, rfl⟩
theorem witness_Stores_x_and_y :
    (running 0x20 []).mem.wf = true ∧ (Instr.stxZpY 0xFF).operand = .memory (.zeroPageY 0xFF) ∧
      (Instr.styZp 0x00).operand = .memory (.zeroPage 0x00) ∧ (∀ m, ¬ (running 0x20 []).refusedOperand m) ∧
      (Instr.stxZpY 0xFF).mnemonic = .stx ∧ (Instr.styZp 0x00).mnemonic = .sty :=
  ⟨by decide, rfl, rfl, fun m h => no_operand rfl m h.2, rfl, rfl⟩

/-! ### Arithmetic, logic, shifts -/

theorem witness_AddBinaryMode :
    let src : Source := .immediate 0xFF
    (Instr.adcImm 0xFF).mnemonic = .adc ∧ (Instr.adcImm 0xFF).operand = src.operand ∧
      ¬ (running 0x21 []).refusedSource src ∧ (running 0x21 []).p.d = false := ⟨rfl, rfl, no_source rfl _, rfl⟩
theorem witness_SubtractBinaryMode :
    let src : Source := .memory (.zeroPageX 0xFF)
    (Instr.sbcZpX 0xFF).mnemonic = .sbc ∧ (Instr.sbcZpX 0xFF).operand = src.operand ∧
      ¬ (running 0x20 []).refusedSource src ∧ (running 0x20 []).p.d = false := ⟨rfl, rfl, no_source rfl _, rfl⟩

/-- Decimal mode, A = 0x99, C = 1. -/
def decimal (policy : DecimalPolicy) : State :=
  configured (machine 0x99 0x00 0x00 0xFF 0x29 0x0200 []) { Config.default with decimalPolicy := policy }

theorem witness_DecimalModeStrict :
    let s := decimal .strict
    (∀ src, ¬ s.refusedSource src) ∧ s.p.d = true ∧ s.config.decimalPolicy = .strict ∧
      (Instr.adcImm 0x99).operand = (Source.immediate 0x99).operand ∧ (Instr.adcImm 0x99).mnemonic = .adc ∧
      (Instr.sbcImm 0x99).operand = (Source.immediate 0x99).operand ∧ (Instr.sbcImm 0x99).mnemonic = .sbc ∧
      (s.a.toNat / 16 ≤ 9 ∧ s.a.toNat % 16 ≤ 9 ∧
        (s.sourceByte (.immediate 0x99)).toNat / 16 ≤ 9 ∧ (s.sourceByte (.immediate 0x99)).toNat % 16 ≤ 9) ∧
      (Instr.sbcImm 0x9A).mnemonic ∈ [.adc, .sbc] ∧ ¬ (s.sourceByte (.immediate 0x9A)).toNat % 16 ≤ 9 :=
  ⟨no_source rfl, by decide⟩
theorem witness_DecimalModeNmos :
    let s := decimal .nmos
    (∀ src, ¬ s.refusedSource src) ∧ s.p.d = true ∧ s.config.decimalPolicy = .nmos ∧
      (Instr.adcImm 0xFF).operand = (Source.immediate 0xFF).operand ∧ (Instr.adcImm 0xFF).mnemonic = .adc ∧
      (Instr.sbcImm 0xFF).operand = (Source.immediate 0xFF).operand ∧ (Instr.sbcImm 0xFF).mnemonic = .sbc :=
  ⟨no_source rfl, by decide⟩
theorem witness_NmosAgreesWithStrict : validBcd 0x99 = true ∧ validBcd 0x00 = true := by decide
theorem witness_LogicOperations :
    (∀ src, ¬ (running 0x20 []).refusedSource src) ∧
      (Instr.andImm 0x0F).operand = (Source.immediate 0x0F).operand ∧ (Instr.andImm 0x0F).mnemonic = .and ∧
      (Instr.oraZp 0xFF).operand = (Source.memory (.zeroPage 0xFF)).operand ∧ (Instr.oraZp 0xFF).mnemonic = .ora ∧
      (Instr.eorIndX 0xFF).operand = (Source.memory (.indexedIndirectX 0xFF)).operand ∧
      (Instr.eorIndX 0xFF).mnemonic = .eor := ⟨no_source rfl, by decide⟩
theorem witness_BitTest :
    (Instr.bitZp 0xFF).mnemonic = .bit ∧ (Instr.bitZp 0xFF).operand = .memory (.zeroPage 0xFF) ∧
      ¬ (running 0x20 []).refusedOperand (.zeroPage 0xFF) := ⟨rfl, rfl, fun h => no_operand rfl _ h.2⟩
theorem witness_Compares :
    (∀ src, ¬ (running 0x20 []).refusedSource src) ∧
      (Instr.cmpAbsY 0xFFFF).operand = (Source.memory (.absoluteY 0xFFFF)).operand ∧
      (Instr.cmpAbsY 0xFFFF).mnemonic = .cmp ∧
      (Instr.cpxImm 0x00).operand = (Source.immediate 0x00).operand ∧ (Instr.cpxImm 0x00).mnemonic = .cpx ∧
      (Instr.cpyImm 0xFF).operand = (Source.immediate 0xFF).operand ∧ (Instr.cpyImm 0xFF).mnemonic = .cpy :=
  ⟨no_source rfl, by decide⟩
theorem witness_ShiftsAndRotates :
    Instr.rorAcc.mnemonic ∈ [.asl, .lsr, .rol, .ror] ∧ Instr.rorAcc.operand = .accumulator ∧
      (Instr.lsrAbsX 0xFFFF).mnemonic ∈ [.asl, .lsr, .rol, .ror] ∧
      (Instr.lsrAbsX 0xFFFF).operand = .memory (.absoluteX 0xFFFF) ∧ (running 0x20 []).mem.wf = true ∧
      ¬ (running 0x20 []).sideEffectOperand (.absoluteX 0xFFFF) :=
  ⟨by decide, by decide, by decide, by decide, by decide, no_operand rfl _⟩
theorem witness_IncrementAndDecrementMemory :
    (Instr.incZpX 0xFF).operand = .memory (.zeroPageX 0xFF) ∧ (Instr.incZpX 0xFF).mnemonic = .inc ∧
      (Instr.decZpX 0xFF).operand = .memory (.zeroPageX 0xFF) ∧ (Instr.decZpX 0xFF).mnemonic = .dec ∧
      (running 0x20 []).mem.wf = true ∧ ¬ (running 0x20 []).sideEffectOperand (.zeroPageX 0xFF) :=
  ⟨rfl, rfl, rfl, rfl, by decide, no_operand rfl _⟩

/-! ### Jumps, subroutines, stack, break -/

/-- The default configuration with this setting. -/
def jmpWrap (w : JmpIndWrap) : Config := { Config.default with jmpIndWrap := w }

theorem witness_Jumps_inside_a_page : (0x02FE : Addr).toNat % 256 ≠ 255 ∧ ¬ (running 0x20 []).sideEffectAt 0x02FE ∧
    ¬ (running 0x20 []).sideEffectAt (0x02FE + 1) := ⟨by decide, no_device rfl _, no_device rfl _⟩
theorem witness_Jumps_at_a_page_end : (0xFFFF : Addr).toNat % 256 = 255 ∧
    (configured (running 0x20 []) (jmpWrap .refuse)).config.jmpIndWrap = .refuse ∧
    ((configured (running 0x20 []) (jmpWrap .carry)).config.jmpIndWrap = .carry ∧
      ∀ a, ¬ (configured (running 0x20 []) (jmpWrap .carry)).sideEffectAt a) ∧
    (configured (running 0x20 []) (jmpWrap .noCarry)).config.jmpIndWrap = .noCarry ∧
      ∀ a, ¬ (configured (running 0x20 []) (jmpWrap .noCarry)).sideEffectAt a :=
  ⟨by decide, rfl, ⟨rfl, no_device rfl⟩, rfl, no_device rfl⟩
theorem witness_JumpIndirectEither :
    let s := configured (running 0x20 []) (jmpWrap .either)
    s.config.jmpIndWrap = .either ∧ (0x03FF : Addr).toNat % 256 = 255 ∧ ∀ a, ¬ s.sideEffectAt a :=
  ⟨rfl, by decide, no_device rfl⟩

/-- PC such that a JSR's third byte is the byte its first push writes. -/
def jsrState : State := machine 0x00 0x00 0x00 0xFF 0x20 0x01FD [(0x01FD, 0x20)]

theorem witness_JumpToSubroutine_refused : jsrState.mem.wf = true ∧ jsrState.underPushes :=
  ⟨by decide, ⟨2, by decide, 0, by decide, by decide⟩⟩
theorem witness_JumpToSubroutine : (running 0x20 []).mem.wf = true ∧ ¬ (running 0x20 []).underPushes ∧
    ¬ (running 0x20 []).refusedPush 2 := ⟨by decide, by unfold State.underPushes; decide, no_push rfl 2⟩
theorem witness_ReturnFromSubroutine : ¬ (running 0x20 []).refusedPull 2 := no_pull rfl 2
theorem plain_stack : PlainStack (running 0x20 []) := ⟨rfl, fun _ => rfl⟩
theorem witness_ReturnUndoesJump : (running 0x20 []).mem.wf = true ∧ PlainStack (running 0x20 []) ∧
    ¬ (running 0x20 []).underPushes := ⟨by decide, plain_stack, by unfold State.underPushes; decide⟩
theorem witness_PushInstructions : (running 0x20 []).mem.wf = true ∧ ¬ (running 0x20 []).refusedPush 1 :=
  ⟨by decide, no_push rfl 1⟩
theorem witness_PullInstructions : ¬ (running 0x20 []).refusedPull 1 := no_pull rfl 1
theorem witness_PullUndoesPush : (running 0x20 []).mem.wf = true ∧ PlainStack (running 0x20 []) :=
  ⟨by decide, plain_stack⟩
theorem witness_Break : (running 0x20 []).mem.wf = true ∧ ¬ (running 0x20 []).refusedPush 3 :=
  ⟨by decide, no_push rfl 3⟩
theorem witness_ReturnFromInterrupt : ¬ (running 0x20 []).refusedPull 3 := no_pull rfl 3
theorem witness_ReturnUndoesBreakAndInterrupt : (running 0x20 []).mem.wf = true ∧ PlainStack (running 0x20 []) :=
  ⟨by decide, plain_stack⟩

/-- X = 1 and the board's device; the pointer at 0x10 leads to 0xD000. -/
def deviceState : State := configured (machine 0x00 0x01 0x00 0xFF 0x20 0x0200 [(0x0011, 0xD0)]) board
/-- The same with the device in page one. -/
def deviceStack : State := configured (running 0x20 []) (mapped [⟨0x0100, 0x01FF, .device true⟩])

theorem witness_SideEffectDevicesAreRefused_modes :
    ((Instr.ldaAbsX 0xCFFF).operand = .memory (.absoluteX 0xCFFF) ∧ (Instr.ldaAbsX 0xCFFF).mnemonic ∉ [.jmp, .jsr] ∧
      deviceState.refusedOperand (.absoluteX 0xCFFF)) ∧
    (Instr.staIndY 0x10).operand = .memory (.indirectIndexedY 0x10) ∧
      deviceState.refusedOperand (.indirectIndexedY 0x10) :=
  ⟨⟨rfl, by decide, rfl, _, .head _, rfl⟩, rfl, rfl, _, .head _, rfl⟩
theorem witness_SideEffectDevicesAreRefused_modify :
    (Instr.incAbs 0xD000).operand = .memory (.absolute 0xD000) ∧
      (Instr.incAbs 0xD000).mnemonic ∈ [.asl, .lsr, .rol, .ror, .inc, .dec] ∧
      deviceState.sideEffectOperand (.absolute 0xD000) := ⟨rfl, by decide, _, .head _, rfl⟩
theorem witness_SideEffectDevicesAreRefused_jump :
    (0xDFFE : Addr).toNat % 256 ≠ 255 ∧ (deviceState.sideEffectAt 0xDFFE ∨ deviceState.sideEffectAt (0xDFFE + 1)) :=
  ⟨by decide, .inl rfl⟩
/-- A device with side effects on one page, and this setting. -/
def devicePage (first : Nat) (w : JmpIndWrap) : State :=
  configured (running 0x20 []) { mapped [⟨first, first + 255, .device true⟩] with jmpIndWrap := w }

theorem witness_SideEffectDevicesAreRefused_page_end : (0x03FF : Addr).toNat % 256 = 255 ∧
    ((devicePage 0x0300 .carry).config.jmpIndWrap ≠ .refuse ∧ (devicePage 0x0300 .carry).sideEffectAt 0x03FF) ∧
    ((devicePage 0x0400 .carry).config.jmpIndWrap = .carry ∧ (devicePage 0x0400 .carry).sideEffectAt (0x03FF + 1)) ∧
    (devicePage 0x0300 .noCarry).config.jmpIndWrap = .noCarry ∧
      (devicePage 0x0300 .noCarry).sideEffectAt (0x03FF - 255) := ⟨by decide, ⟨by decide, rfl⟩, ⟨rfl, rfl⟩, rfl, rfl⟩

/-- A device with side effects at these single addresses, and the setting `either`. -/
def deviceBytes (at_ : List Nat) : State :=
  configured (running 0x20 []) { mapped (at_.map fun a => ⟨a, a, .device true⟩) with jmpIndWrap := .either }

theorem witness_SideEffectDevicesAreRefused_either :
    ((deviceBytes [0x0400, 0x0300]).config.jmpIndWrap = .either ∧
      (deviceBytes [0x0400, 0x0300]).kindAt 0x03FF ≠ .device true ∧
      (deviceBytes [0x0400, 0x0300]).sideEffectAt (0x03FF + 1) ∧
      (deviceBytes [0x0400, 0x0300]).sideEffectAt (0x03FF - 255)) ∧
    ((deviceBytes [0x0400]).sideEffectAt (0x03FF + 1) ∧ (deviceBytes [0x0400]).kindAt (0x03FF - 255) ≠ .device true) ∧
    (deviceBytes [0x0300]).kindAt (0x03FF + 1) ≠ .device true ∧ (deviceBytes [0x0300]).sideEffectAt (0x03FF - 255) :=
  ⟨⟨rfl, by decide, rfl, rfl⟩, ⟨rfl, by decide⟩, by decide, rfl⟩
theorem witness_SideEffectDevicesAreRefused_stack :
    deviceStack.refusedPush 1 ∧ deviceStack.refusedPull 1 ∧ (deviceStack.refusedPush 2 ∧ ¬ deviceStack.underPushes) ∧
      deviceStack.refusedPull 2 ∧ deviceStack.refusedPush 3 ∧ deviceStack.refusedPull 3 :=
  ⟨⟨0, by decide, rfl⟩, ⟨0, by decide, rfl⟩, ⟨⟨1, by decide, rfl⟩, by unfold State.underPushes; decide⟩,
    ⟨1, by decide, rfl⟩, ⟨2, by decide, rfl⟩, ⟨2, by decide, rfl⟩⟩

end Sys2Proof.Tests
end

/-! The statements of spec/10_state.md. Every instruction is one case of `Meaning`, which lists by mnemonic what `exec`
answers and the state it leaves. `exec_meaning` ties it to `exec`; who writes a register, a flag or a byte of memory is read
off its cases. -/

section

namespace Sys2Proof.Machine

/-! ### What the shifts do to the flags -/

@[simp] theorem shiftLeft_p (m : Byte) (p : Status) :
    (shiftLeft m p).p = { p.setNZ (m <<< 1) with c := m.getLsbD 7 } := rfl
@[simp] theorem shiftRight_p (m : Byte) (p : Status) :
    (shiftRight m p).p = { p with n := false, z := isZero (m >>> 1), c := m.getLsbD 0 } := rfl
@[simp] theorem rotateLeft_p (m : Byte) (p : Status) :
    (rotateLeft m p).p = { p.setNZ (rotateLeft m p).r with c := m.getLsbD 7 } := rfl
@[simp] theorem rotateRight_p (m : Byte) (p : Status) :
    (rotateRight m p).p = { p.setNZ (rotateRight m p).r with c := m.getLsbD 0 } := rfl
@[simp] theorem increment_p (m : Byte) (p : Status) : (increment m p).p = p.setNZ (m + 1) := rfl
@[simp] theorem decrement_p (m : Byte) (p : Status) : (decrement m p).p = p.setNZ (m - 1) := rfl

/-! ### The instructions by mnemonic -/

/-- What a read-modify-write instruction on memory leaves when it completes (spec/40_addressing_modes.md R100). -/
def State.modified (s : State) (m : MemMode) (f : Byte → Status → Shifted) : State :=
  ((s.write (s.ea m) (f (s.read .operand (s.ea m)) s.p).r).setP (f (s.read .operand (s.ea m)) s.p).p).advance m.length

/-- What a shift or rotate of the accumulator leaves (spec/43_shift_incdec.md R160). -/
def State.shiftedA (s : State) (f : Byte → Status → Shifted) : State :=
  ((s.setA (f s.a s.p).r).setP (f s.a s.p).p).advance 1

/-- `Meaning s k o r u`: with mnemonic `k` and operand `o` an instruction answers `r` in `s`, and where it completes
it leaves `u`. One case per mnemonic, two where the accumulator or a pointer is an operand of its own kind. -/
inductive Meaning (s : State) : Mnemonic → Operand → Result → State → Prop
  | lda (src) : Meaning s .lda src.operand (loadA src s)
      (((s.setA (s.sourceByte src)).setNZ (s.sourceByte src)).advance src.length)
  | ldx (src) : Meaning s .ldx src.operand (loadX src s)
      (((s.setX (s.sourceByte src)).setNZ (s.sourceByte src)).advance src.length)
  | ldy (src) : Meaning s .ldy src.operand (loadY src s)
      (((s.setY (s.sourceByte src)).setNZ (s.sourceByte src)).advance src.length)
  | adc (src) : Meaning s .adc src.operand (addWithCarry src s)
      (((s.setA (s.sum (s.sourceByte src)).r).setP (s.p.setAlu (s.sum (s.sourceByte src)))).advance src.length)
  | sbc (src) : Meaning s .sbc src.operand (subWithBorrow src s)
      (((s.setA (s.difference (s.sourceByte src)).r).setP
        (s.p.setAlu (s.difference (s.sourceByte src)))).advance src.length)
  | and (src) : Meaning s .and src.operand (andWith src s)
      (((s.setA (s.a &&& s.sourceByte src)).setNZ (s.a &&& s.sourceByte src)).advance src.length)
  | ora (src) : Meaning s .ora src.operand (orWith src s)
      (((s.setA (s.a ||| s.sourceByte src)).setNZ (s.a ||| s.sourceByte src)).advance src.length)
  | eor (src) : Meaning s .eor src.operand (xorWith src s)
      (((s.setA (s.a ^^^ s.sourceByte src)).setNZ (s.a ^^^ s.sourceByte src)).advance src.length)
  | bit (m) : Meaning s .bit (.memory m) (testBits m s)
      ((s.setP (s.p.bitTest s.a (s.read .operand (s.ea m)))).advance m.length)
  | cmp (src) : Meaning s .cmp src.operand (compareWith s.a src s)
      ((s.setP (s.p.compare s.a (s.sourceByte src))).advance src.length)
  | cpx (src) : Meaning s .cpx src.operand (compareWith s.x src s)
      ((s.setP (s.p.compare s.x (s.sourceByte src))).advance src.length)
  | cpy (src) : Meaning s .cpy src.operand (compareWith s.y src s)
      ((s.setP (s.p.compare s.y (s.sourceByte src))).advance src.length)
  | sta (m) : Meaning s .sta (.memory m) (s.storing m s.a) ((s.write (s.ea m) s.a).advance m.length)
  | stx (m) : Meaning s .stx (.memory m) (s.storing m s.x) ((s.write (s.ea m) s.x).advance m.length)
  | sty (m) : Meaning s .sty (.memory m) (s.storing m s.y) ((s.write (s.ea m) s.y).advance m.length)
  | asl (m) : Meaning s .asl (.memory m) (s.modifying m shiftLeft) (s.modified m shiftLeft)
  | lsr (m) : Meaning s .lsr (.memory m) (s.modifying m shiftRight) (s.modified m shiftRight)
  | rol (m) : Meaning s .rol (.memory m) (s.modifying m rotateLeft) (s.modified m rotateLeft)
  | ror (m) : Meaning s .ror (.memory m) (s.modifying m rotateRight) (s.modified m rotateRight)
  | inc (m) : Meaning s .inc (.memory m) (s.modifying m increment) (s.modified m increment)
  | dec (m) : Meaning s .dec (.memory m) (s.modifying m decrement) (s.modified m decrement)
  | aslA : Meaning s .asl .accumulator (s.shifting .accumulator shiftLeft) (s.shiftedA shiftLeft)
  | lsrA : Meaning s .lsr .accumulator (s.shifting .accumulator shiftRight) (s.shiftedA shiftRight)
  | rolA : Meaning s .rol .accumulator (s.shifting .accumulator rotateLeft) (s.shiftedA rotateLeft)
  | rorA : Meaning s .ror .accumulator (s.shifting .accumulator rotateRight) (s.shiftedA rotateRight)
  | tax : Meaning s .tax .implied (execTax s) (((s.setX s.a).setNZ s.a).advance 1)
  | tay : Meaning s .tay .implied (execTay s) (((s.setY s.a).setNZ s.a).advance 1)
  | tsx : Meaning s .tsx .implied (execTsx s) (((s.setX s.sp).setNZ s.sp).advance 1)
  | txa : Meaning s .txa .implied (execTxa s) (((s.setA s.x).setNZ s.x).advance 1)
  | txs : Meaning s .txs .implied (execTxs s) ((s.setSp s.x).advance 1)
  | tya : Meaning s .tya .implied (execTya s) (((s.setA s.y).setNZ s.y).advance 1)
  | inx : Meaning s .inx .implied (execInx s) (((s.setX (s.x + 1)).setNZ (s.x + 1)).advance 1)
  | iny : Meaning s .iny .implied (execIny s) (((s.setY (s.y + 1)).setNZ (s.y + 1)).advance 1)
  | dex : Meaning s .dex .implied (execDex s) (((s.setX (s.x - 1)).setNZ (s.x - 1)).advance 1)
  | dey : Meaning s .dey .implied (execDey s) (((s.setY (s.y - 1)).setNZ (s.y - 1)).advance 1)
  | bcc (rel) : Meaning s .bcc (.relative rel) (branchIf (!s.p.c) rel s)
      (s.setPc (if !s.p.c then s.branchTarget rel else s.afterBranch))
  | bcs (rel) : Meaning s .bcs (.relative rel) (branchIf s.p.c rel s)
      (s.setPc (if s.p.c then s.branchTarget rel else s.afterBranch))
  | beq (rel) : Meaning s .beq (.relative rel) (branchIf s.p.z rel s)
      (s.setPc (if s.p.z then s.branchTarget rel else s.afterBranch))
  | bmi (rel) : Meaning s .bmi (.relative rel) (branchIf s.p.n rel s)
      (s.setPc (if s.p.n then s.branchTarget rel else s.afterBranch))
  | bne (rel) : Meaning s .bne (.relative rel) (branchIf (!s.p.z) rel s)
      (s.setPc (if !s.p.z then s.branchTarget rel else s.afterBranch))
  | bpl (rel) : Meaning s .bpl (.relative rel) (branchIf (!s.p.n) rel s)
      (s.setPc (if !s.p.n then s.branchTarget rel else s.afterBranch))
  | bvc (rel) : Meaning s .bvc (.relative rel) (branchIf (!s.p.v) rel s)
      (s.setPc (if !s.p.v then s.branchTarget rel else s.afterBranch))
  | bvs (rel) : Meaning s .bvs (.relative rel) (branchIf s.p.v rel s)
      (s.setPc (if s.p.v then s.branchTarget rel else s.afterBranch))
  | jmp (addr) : Meaning s .jmp (.memory (.absolute addr)) (execJmpAbs addr s) (s.setPc addr)
  | jmpInd (ptr) : Meaning s .jmp (.absoluteIndirect ptr) (jumpIndirect ptr s) (s.setPc (s.indirectTarget ptr))
  | jsr (addr) : Meaning s .jsr (.memory (.absolute addr)) (jumpSubroutine addr s)
      (((s.push (hiByte (s.pc + 2))).push (loByte (s.pc + 2))).setPc addr)
  | rts : Meaning s .rts .implied (returnSubroutine s)
      ((s.setPc (joinBytes (s.pulled .pulledLow 0) (s.pulled .pulledHigh 1) + 1)).drop 2)
  | pha : Meaning s .pha .implied (pushByte s.a s) ((s.push s.a).advance 1)
  | php : Meaning s .php .implied (pushByte (s.p.image true) s) ((s.push (s.p.image true)).advance 1)
  | pla : Meaning s .pla .implied (pullA s)
      ((((s.setA (s.pulled .pulledA 0)).setNZ (s.pulled .pulledA 0)).drop 1).advance 1)
  | plp : Meaning s .plp .implied (pullStatus s)
      (((s.setP (Status.ofByte (s.pulled .pulledStatus 0))).drop 1).advance 1)
  | clc : Meaning s .clc .implied (setFlags { s.p with c := false } s) ((s.setP { s.p with c := false }).advance 1)
  | cld : Meaning s .cld .implied (setFlags { s.p with d := false } s) ((s.setP { s.p with d := false }).advance 1)
  | cli : Meaning s .cli .implied (setFlags { s.p with i := false } s) ((s.setP { s.p with i := false }).advance 1)
  | clv : Meaning s .clv .implied (setFlags { s.p with v := false } s) ((s.setP { s.p with v := false }).advance 1)
  | sec : Meaning s .sec .implied (setFlags { s.p with c := true } s) ((s.setP { s.p with c := true }).advance 1)
  | sed : Meaning s .sed .implied (setFlags { s.p with d := true } s) ((s.setP { s.p with d := true }).advance 1)
  | sei : Meaning s .sei .implied (setFlags { s.p with i := true } s) ((s.setP { s.p with i := true }).advance 1)
  | nop : Meaning s .nop .implied (execNop s) (s.advance 1)
  | brk : Meaning s .brk .implied (s.takeBreak (s.pc + 2) true irqVector) (s.enter (s.pc + 2) true irqVector)
  | rti : Meaning s .rti .implied s.returnFromInterrupt s.returned

/-- Every instruction answers what `Meaning` lists for its mnemonic and operand. -/
theorem exec_meaning (s : State) : ∀ i : Instr, ∃ u, Meaning s i.mnemonic i.operand (exec i s) u
  | .adcImm imm => ⟨_, .adc (.immediate imm)⟩
  | .adcAbs addr => ⟨_, .adc (.memory (.absolute addr))⟩
  | .adcZp zp => ⟨_, .adc (.memory (.zeroPage zp))⟩
  | .adcIndX zp => ⟨_, .adc (.memory (.indexedIndirectX zp))⟩
  | .adcIndY zp => ⟨_, .adc (.memory (.indirectIndexedY zp))⟩
  | .adcZpX zp => ⟨_, .adc (.memory (.zeroPageX zp))⟩
  | .adcAbsX addr => ⟨_, .adc (.memory (.absoluteX addr))⟩
  | .adcAbsY addr => ⟨_, .adc (.memory (.absoluteY addr))⟩
  | .andImm imm => ⟨_, .and (.immediate imm)⟩
  | .andAbs addr => ⟨_, .and (.memory (.absolute addr))⟩
  | .andZp zp => ⟨_, .and (.memory (.zeroPage zp))⟩
  | .andIndX zp => ⟨_, .and (.memory (.indexedIndirectX zp))⟩
  | .andIndY zp => ⟨_, .and (.memory (.indirectIndexedY zp))⟩
  | .andZpX zp => ⟨_, .and (.memory (.zeroPageX zp))⟩
  | .andAbsX addr => ⟨_, .and (.memory (.absoluteX addr))⟩
  | .andAbsY addr => ⟨_, .and (.memory (.absoluteY addr))⟩
  | .aslAbs addr => ⟨_, .asl (.absolute addr)⟩
  | .aslZp zp => ⟨_, .asl (.zeroPage zp)⟩
  | .aslAcc => ⟨_, .aslA⟩
  | .aslZpX zp => ⟨_, .asl (.zeroPageX zp)⟩
  | .aslAbsX addr => ⟨_, .asl (.absoluteX addr)⟩
  | .bcc rel => ⟨_, .bcc rel⟩
  | .bcs rel => ⟨_, .bcs rel⟩
  | .beq rel => ⟨_, .beq rel⟩
  | .bitAbs addr => ⟨_, .bit (.absolute addr)⟩
  | .bitZp zp => ⟨_, .bit (.zeroPage zp)⟩
  | .bmi rel => ⟨_, .bmi rel⟩
  | .bne rel => ⟨_, .bne rel⟩
  | .bpl rel => ⟨_, .bpl rel⟩
  | .brk => ⟨_, .brk⟩
  | .bvc rel => ⟨_, .bvc rel⟩
  | .bvs rel => ⟨_, .bvs rel⟩
  | .clc => ⟨_, .clc⟩
  | .cld => ⟨_, .cld⟩
  | .cli => ⟨_, .cli⟩
  | .clv => ⟨_, .clv⟩
  | .cmpImm imm => ⟨_, .cmp (.immediate imm)⟩
  | .cmpAbs addr => ⟨_, .cmp (.memory (.absolute addr))⟩
  | .cmpZp zp => ⟨_, .cmp (.memory (.zeroPage zp))⟩
  | .cmpIndX zp => ⟨_, .cmp (.memory (.indexedIndirectX zp))⟩
  | .cmpIndY zp => ⟨_, .cmp (.memory (.indirectIndexedY zp))⟩
  | .cmpZpX zp => ⟨_, .cmp (.memory (.zeroPageX zp))⟩
  | .cmpAbsX addr => ⟨_, .cmp (.memory (.absoluteX addr))⟩
  | .cmpAbsY addr => ⟨_, .cmp (.memory (.absoluteY addr))⟩
  | .cpxImm imm => ⟨_, .cpx (.immediate imm)⟩
  | .cpxAbs addr => ⟨_, .cpx (.memory (.absolute addr))⟩
  | .cpxZp zp => ⟨_, .cpx (.memory (.zeroPage zp))⟩
  | .cpyImm imm => ⟨_, .cpy (.immediate imm)⟩
  | .cpyAbs addr => ⟨_, .cpy (.memory (.absolute addr))⟩
  | .cpyZp zp => ⟨_, .cpy (.memory (.zeroPage zp))⟩
  | .decAbs addr => ⟨_, .dec (.absolute addr)⟩
  | .decZp zp => ⟨_, .dec (.zeroPage zp)⟩
  | .decZpX zp => ⟨_, .dec (.zeroPageX zp)⟩
  | .decAbsX addr => ⟨_, .dec (.absoluteX addr)⟩
  | .dex => ⟨_, .dex⟩
  | .dey => ⟨_, .dey⟩
  | .eorImm imm => ⟨_, .eor (.immediate imm)⟩
  | .eorAbs addr => ⟨_, .eor (.memory (.absolute addr))⟩
  | .eorZp zp => ⟨_, .eor (.memory (.zeroPage zp))⟩
  | .eorIndX zp => ⟨_, .eor (.memory (.indexedIndirectX zp))⟩
  | .eorIndY zp => ⟨_, .eor (.memory (.indirectIndexedY zp))⟩
  | .eorZpX zp => ⟨_, .eor (.memory (.zeroPageX zp))⟩
  | .eorAbsX addr => ⟨_, .eor (.memory (.absoluteX addr))⟩
  | .eorAbsY addr => ⟨_, .eor (.memory (.absoluteY addr))⟩
  | .incAbs addr => ⟨_, .inc (.absolute addr)⟩
  | .incZp zp => ⟨_, .inc (.zeroPage zp)⟩
  | .incZpX zp => ⟨_, .inc (.zeroPageX zp)⟩
  | .incAbsX addr => ⟨_, .inc (.absoluteX addr)⟩
  | .inx => ⟨_, .inx⟩
  | .iny => ⟨_, .iny⟩
  | .jmpAbs addr => ⟨_, .jmp addr⟩
  | .jmpInd ptr => ⟨_, .jmpInd ptr⟩
  | .jsr addr => ⟨_, .jsr addr⟩
  | .ldaImm imm => ⟨_, .lda (.immediate imm)⟩
  | .ldaAbs addr => ⟨_, .lda (.memory (.absolute addr))⟩
  | .ldaZp zp => ⟨_, .lda (.memory (.zeroPage zp))⟩
  | .ldaIndX zp => ⟨_, .lda (.memory (.indexedIndirectX zp))⟩
  | .ldaIndY zp => ⟨_, .lda (.memory (.indirectIndexedY zp))⟩
  | .ldaZpX zp => ⟨_, .lda (.memory (.zeroPageX zp))⟩
  | .ldaAbsX addr => ⟨_, .lda (.memory (.absoluteX addr))⟩
  | .ldaAbsY addr => ⟨_, .lda (.memory (.absoluteY addr))⟩
  | .ldxImm imm => ⟨_, .ldx (.immediate imm)⟩
  | .ldxAbs addr => ⟨_, .ldx (.memory (.absolute addr))⟩
  | .ldxZp zp => ⟨_, .ldx (.memory (.zeroPage zp))⟩
  | .ldxAbsY addr => ⟨_, .ldx (.memory (.absoluteY addr))⟩
  | .ldxZpY zp => ⟨_, .ldx (.memory (.zeroPageY zp))⟩
  | .ldyImm imm => ⟨_, .ldy (.immediate imm)⟩
  | .ldyAbs addr => ⟨_, .ldy (.memory (.absolute addr))⟩
  | .ldyZp zp => ⟨_, .ldy (.memory (.zeroPage zp))⟩
  | .ldyZpX zp => ⟨_, .ldy (.memory (.zeroPageX zp))⟩
  | .ldyAbsX addr => ⟨_, .ldy (.memory (.absoluteX addr))⟩
  | .lsrAbs addr => ⟨_, .lsr (.absolute addr)⟩
  | .lsrZp zp => ⟨_, .lsr (.zeroPage zp)⟩
  | .lsrAcc => ⟨_, .lsrA⟩
  | .lsrZpX zp => ⟨_, .lsr (.zeroPageX zp)⟩
  | .lsrAbsX addr => ⟨_, .lsr (.absoluteX addr)⟩
  | .nop => ⟨_, .nop⟩
  | .oraImm imm => ⟨_, .ora (.immediate imm)⟩
  | .oraAbs addr => ⟨_, .ora (.memory (.absolute addr))⟩
  | .oraZp zp => ⟨_, .ora (.memory (.zeroPage zp))⟩
  | .oraIndX zp => ⟨_, .ora (.memory (.indexedIndirectX zp))⟩
  | .oraIndY zp => ⟨_, .ora (.memory (.indirectIndexedY zp))⟩
  | .oraZpX zp => ⟨_, .ora (.memory (.zeroPageX zp))⟩
  | .oraAbsX addr => ⟨_, .ora (.memory (.absoluteX addr))⟩
  | .oraAbsY addr => ⟨_, .ora (.memory (.absoluteY addr))⟩
  | .pha => ⟨_, .pha⟩
  | .php => ⟨_, .php⟩
  | .pla => ⟨_, .pla⟩
  | .plp => ⟨_, .plp⟩
  | .rolAbs addr => ⟨_, .rol (.absolute addr)⟩
  | .rolZp zp => ⟨_, .rol (.zeroPage zp)⟩
  | .rolAcc => ⟨_, .rolA⟩
  | .rolZpX zp => ⟨_, .rol (.zeroPageX zp)⟩
  | .rolAbsX addr => ⟨_, .rol (.absoluteX addr)⟩
  | .rorAbs addr => ⟨_, .ror (.absolute addr)⟩
  | .rorZp zp => ⟨_, .ror (.zeroPage zp)⟩
  | .rorAcc => ⟨_, .rorA⟩
  | .rorZpX zp => ⟨_, .ror (.zeroPageX zp)⟩
  | .rorAbsX addr => ⟨_, .ror (.absoluteX addr)⟩
  | .rti => ⟨_, .rti⟩
  | .rts => ⟨_, .rts⟩
  | .sbcImm imm => ⟨_, .sbc (.immediate imm)⟩
  | .sbcAbs addr => ⟨_, .sbc (.memory (.absolute addr))⟩
  | .sbcZp zp => ⟨_, .sbc (.memory (.zeroPage zp))⟩
  | .sbcIndX zp => ⟨_, .sbc (.memory (.indexedIndirectX zp))⟩
  | .sbcIndY zp => ⟨_, .sbc (.memory (.indirectIndexedY zp))⟩
  | .sbcZpX zp => ⟨_, .sbc (.memory (.zeroPageX zp))⟩
  | .sbcAbsX addr => ⟨_, .sbc (.memory (.absoluteX addr))⟩
  | .sbcAbsY addr => ⟨_, .sbc (.memory (.absoluteY addr))⟩
  | .sec => ⟨_, .sec⟩
  | .sed => ⟨_, .sed⟩
  | .sei => ⟨_, .sei⟩
  | .staAbs addr => ⟨_, .sta (.absolute addr)⟩
  | .staZp zp => ⟨_, .sta (.zeroPage zp)⟩
  | .staIndX zp => ⟨_, .sta (.indexedIndirectX zp)⟩
  | .staIndY zp => ⟨_, .sta (.indirectIndexedY zp)⟩
  | .staZpX zp => ⟨_, .sta (.zeroPageX zp)⟩
  | .staAbsX addr => ⟨_, .sta (.absoluteX addr)⟩
  | .staAbsY addr => ⟨_, .sta (.absoluteY addr)⟩
  | .stxAbs addr => ⟨_, .stx (.absolute addr)⟩
  | .stxZp zp => ⟨_, .stx (.zeroPage zp)⟩
  | .stxZpY zp => ⟨_, .stx (.zeroPageY zp)⟩
  | .styAbs addr => ⟨_, .sty (.absolute addr)⟩
  | .styZp zp => ⟨_, .sty (.zeroPage zp)⟩
  | .styZpX zp => ⟨_, .sty (.zeroPageX zp)⟩
  | .tax => ⟨_, .tax⟩
  | .tay => ⟨_, .tay⟩
  | .tsx => ⟨_, .tsx⟩
  | .txa => ⟨_, .txa⟩
  | .txs => ⟨_, .txs⟩
  | .tya => ⟨_, .tya⟩

section Meaning
variable {s t u : State} {k : Mnemonic} {o : Operand} {r : Result}

/-- JMP (indirect) and JSR have a refusal of their own before that of R59. -/
theorem next_of_guarded {refuse touched : Bool} {why : Refusal}
    (h : (if refuse then .refused why else unlessDevice touched u) = Host.Outcome.next t) : u = t := by
  cases refuse with
  | true => simp at h
  | false => exact ((unlessDevice_next_iff touched u t).1 h).2

/-- An instruction that completes leaves the listed state. -/
theorem Meaning.eq_of_next (h : Meaning s k o r u) (hr : r = .next t) : u = t := by
  cases h with
  | jmpInd | jsr => exact next_of_guarded hr
  | tax | tay | tsx | txa | txs | tya | inx | iny | dex | dey | aslA | lsrA | rolA | rorA | bcc | bcs | beq | bmi | bne
  | bpl | bvc | bvs | jmp | clc | cld | cli | clv | sec | sed | sei | nop => exact Host.Outcome.next.inj hr
  | _ => exact ((unlessDevice_next_iff _ _ _).1 hr).2

/-- What an instruction that completes leaves, by its mnemonic and operand. -/
theorem meaning_of_exec_next {i : Instr} (h : exec i s = .next t) : Meaning s i.mnemonic i.operand (.next t) t := by
  obtain ⟨u, hu⟩ := exec_meaning s i
  obtain rfl := hu.eq_of_next h
  exact h ▸ hu

/-! ### Who writes a register -/

section Modified
variable (s : State) (m : MemMode) (f : Byte → Status → Shifted)

@[simp] theorem State.modified_a : (s.modified m f).a = s.a := by simp [State.modified]
@[simp] theorem State.modified_x : (s.modified m f).x = s.x := by simp [State.modified]
@[simp] theorem State.modified_y : (s.modified m f).y = s.y := by simp [State.modified]
@[simp] theorem State.modified_sp : (s.modified m f).sp = s.sp := by simp [State.modified]
@[simp] theorem State.modified_p : (s.modified m f).p = (f (s.read .operand (s.ea m)) s.p).p := by simp [State.modified]

@[simp] theorem State.shiftedA_x : (s.shiftedA f).x = s.x := rfl
@[simp] theorem State.shiftedA_y : (s.shiftedA f).y = s.y := rfl
@[simp] theorem State.shiftedA_sp : (s.shiftedA f).sp = s.sp := rfl
@[simp] theorem State.shiftedA_p : (s.shiftedA f).p = (f s.a s.p).p := rfl

end Modified

/-- A is written by the loads, the operations on A, the transfers to A and PLA, and by a shift of the accumulator
(spec/10_state.md R20). -/
theorem Meaning.writes_a (h : Meaning s k o r u) (ha : u.a ≠ s.a) :
    k ∈ [.adc, .sbc, .and, .ora, .eor, .lda, .pla, .txa, .tya] ∨
      (k ∈ [.asl, .lsr, .rol, .ror] ∧ o = .accumulator) := by
  cases h with
  | adc | sbc | and | ora | eor | lda | pla | txa | tya => simp
  | aslA | lsrA | rolA | rorA => simp
  | _ => exact absurd (by simp [State.enter_registers, State.returned_eq]) ha

/-- X is written by LDX, the transfers to X, INX and DEX (spec/10_state.md R21). -/
theorem Meaning.writes_x (h : Meaning s k o r u) (hx : u.x ≠ s.x) : k ∈ [.ldx, .tax, .tsx, .inx, .dex] := by
  cases h with
  | ldx | tax | tsx | inx | dex => simp
  | _ => exact absurd (by simp [State.enter_registers, State.returned_eq]) hx

/-- Y is written by LDY, TAY, INY and DEY (spec/10_state.md R22). -/
theorem Meaning.writes_y (h : Meaning s k o r u) (hy : u.y ≠ s.y) : k ∈ [.ldy, .tay, .iny, .dey] := by
  cases h with
  | ldy | tay | iny | dey => simp
  | _ => exact absurd (by simp [State.enter_registers, State.returned_eq]) hy

/-- S is written by TXS, the pushes and the pulls (spec/10_state.md R23). -/
theorem Meaning.writes_sp (h : Meaning s k o r u) (hs : u.sp ≠ s.sp) :
    k ∈ [.txs, .pha, .php, .pla, .plp, .jsr, .rts, .rti, .brk] := by
  cases h with
  | txs | pha | php | pla | plp | jsr | rts | rti | brk => simp
  | _ => exact absurd (by simp) hs

/-! ### Who writes a flag -/

/-- N is written by what sets N and Z, by ADC, SBC, the compares, BIT and LSR, and by the pulls of P
(spec/10_state.md R27). -/
theorem Meaning.writes_n (h : Meaning s k o r u) (hn : u.p.n ≠ s.p.n) :
    k ∈ [.adc, .and, .asl, .cmp, .cpx, .cpy, .dec, .dex, .dey, .eor, .inc, .inx, .iny, .lda,
      .ldx, .ldy, .ora, .pla, .rol, .ror, .sbc, .tax, .tay, .tsx, .txa, .tya, .bit, .lsr, .plp, .rti] := by
  cases h with
  | sta | stx | sty | txs | bcc | bcs | beq | bmi | bne | bpl | bvc | bvs | jmp | jmpInd | jsr | rts | pha | php | clc | cld
  | cli | clv | sec | sed | sei | nop | brk => exact absurd (by simp [State.enter_registers]) hn
  | _ => simp

/-- V is written by ADC, SBC, BIT, CLV and the pulls of P (spec/10_state.md R27). -/
theorem Meaning.writes_v (h : Meaning s k o r u) (hv : u.p.v ≠ s.p.v) : k ∈ [.adc, .sbc, .bit, .clv, .plp, .rti] := by
  cases h with
  | adc | sbc | bit | clv | plp | rti => simp
  | _ => exact absurd (by simp [State.enter_registers]) hv

/-- D is written by CLD, SED and the pulls of P (spec/10_state.md R27). -/
theorem Meaning.writes_d (h : Meaning s k o r u) (hd : u.p.d ≠ s.p.d) : k ∈ [.cld, .sed, .plp, .rti] := by
  cases h with
  | cld | sed | plp | rti => simp
  | _ => exact absurd (by simp [State.enter_registers]) hd

/-- I is written by CLI, SEI, BRK and the pulls of P (spec/10_state.md R27). -/
theorem Meaning.writes_i (h : Meaning s k o r u) (hi : u.p.i ≠ s.p.i) : k ∈ [.cli, .sei, .brk, .plp, .rti] := by
  cases h with
  | cli | sei | brk | plp | rti => simp
  | _ => exact absurd (by simp) hi

/-- Z is written by the instructions that write N (spec/10_state.md R27). -/
theorem Meaning.writes_z (h : Meaning s k o r u) (hz : u.p.z ≠ s.p.z) :
    k ∈ [.adc, .and, .asl, .bit, .cmp, .cpx, .cpy, .dec, .dex, .dey, .eor, .inc, .inx, .iny,
      .lda, .ldx, .ldy, .lsr, .ora, .pla, .rol, .ror, .sbc, .tax, .tay, .tsx, .txa, .tya, .plp, .rti] := by
  cases h with
  | sta | stx | sty | txs | bcc | bcs | beq | bmi | bne | bpl | bvc | bvs | jmp | jmpInd | jsr | rts | pha | php | clc | cld
  | cli | clv | sec | sed | sei | nop | brk => exact absurd (by simp [State.enter_registers]) hz
  | _ => simp

/-- C is written by ADC, SBC, the shifts, the compares, CLC, SEC and the pulls of P (spec/10_state.md R27). -/
theorem Meaning.writes_c (h : Meaning s k o r u) (hc : u.p.c ≠ s.p.c) :
    k ∈ [.adc, .sbc, .asl, .rol, .lsr, .ror, .cmp, .cpx, .cpy, .clc, .sec, .plp, .rti] := by
  cases h with
  | adc | sbc | asl | aslA | rol | rolA | lsr | lsrA | ror | rorA | cmp | cpx | cpy | clc | sec | plp | rti => simp
  | _ => exact absurd (by simp [State.enter_registers]) hc

/-! ### What every instruction leaves -/

/-- An instruction leaves every pin, latch and queue and the configuration (spec/10_state.md R33, R34). -/
theorem Meaning.frame (h : Meaning s k o r u) :
    { u with a := s.a, x := s.x, y := s.y, sp := s.sp, pc := s.pc, p := s.p, mem := s.mem } = s := by
  cases h with
  | sta | stx | sty => simp [State.advance, State.setPc, State.write_eq]
  | asl | lsr | rol | ror | inc | dec => simp [State.modified, State.advance, State.setPc, State.setP, State.write_eq]
  | pha | php | jsr => simp [State.advance, State.setPc, State.push, State.setSp, State.write_eq]
  | brk =>
    have he := s.enter_frame (s.pc + 2) true irqVector
    rw [State.mk.injEq] at he ⊢
    simp_all
  | _ => rfl

end Meaning

/-- Settles O21: each register by its own case analysis of the instructions. -/
theorem registerWriters : Obligations.RegisterWriters := by
  intro i s t h
  have hm := meaning_of_exec_next h
  exact ⟨hm.writes_a, hm.writes_x, hm.writes_y, hm.writes_sp⟩

/-- Settles O22: each flag by its own case analysis of the instructions. -/
theorem flagWriters : Obligations.FlagWriters := by
  intro i s t h
  have hm := meaning_of_exec_next h
  exact ⟨hm.writes_n, hm.writes_v, hm.writes_d, hm.writes_i, hm.writes_z, hm.writes_c⟩

/-! ### The start of a step and its event -/

/-- A step takes in the first queued entry. -/
@[simp] theorem State.sample_inputs (s : State) : s.sample.inputs = s.inputs.tail := by
  unfold State.sample State.applyInputs
  split <;> simp_all

/-- The NMI sequence is the entry it makes after clearing its request. -/
theorem State.takeNmi_next {s u : State} (h : s.takeNmi = .next u) :
    u = { s with nmiPending := false, maskLatent := false }.enter s.pc false nmiVector :=
  ((State.takeBreak_next_iff _ _ _ _ _).1 h).2.symm

/-- The IRQ sequence is the entry it makes. -/
theorem State.takeIrq_next {s u : State} (h : s.takeIrq = .next u) :
    u = { s with maskLatent := false }.enter s.pc false irqVector :=
  ((State.takeBreak_next_iff _ _ _ _ _).1 h).2.symm

/-- What every update of latches, registers and flags has (`keeps`), every entry of a break or an interrupt (`enter`) and
every instruction (`instr`), a step has from the state where its inputs are taken in, if it passes along a chain
(`trans`). -/
theorem step_induction {R : State → State → Prop} (trans : ∀ {s t u}, R s t → R t u → R s u)
    (keeps : ∀ {s t : State}, t.mem = s.mem → t.config = s.config → t.draws = s.draws → t.inputs = s.inputs → R s t)
    (enter : ∀ s ret b vec, R s (State.enter s ret b vec))
    (instr : ∀ {i s t}, exec i s = .next t → R s t)
    {s t : State} (h : step s = .next t) : R s.sample t := by
  have edge (s : State) : R s s.applyEdge := by
    rw [State.applyEdge_eq]
    exact keeps rfl rfl rfl rfl
  have late (s : State) : R s s.applyLate := by
    rw [State.applyLate_eq]
    exact keeps rfl rfl rfl rfl
  rcases step_next_cases h with
    ⟨-, rfl⟩ | ⟨-, rfl⟩ | ⟨-, rfl⟩ | ⟨-, u, hu, rfl⟩ | ⟨-, u, hu, rfl⟩ | ⟨-, i, u, -, hu, rfl⟩
  · exact keeps rfl rfl rfl rfl
  · exact keeps rfl rfl rfl rfl
  · exact keeps rfl rfl rfl rfl
  · rw [State.takeNmi_next hu]
    have latches : R s.sample.applyEdge { s.sample.applyEdge with nmiPending := false, maskLatent := false } :=
      keeps rfl rfl rfl rfl
    exact trans (edge _) (trans latches (trans (enter _ _ _ _) (late _)))
  · rw [State.takeIrq_next hu]
    have latches : R s.sample.applyEdge { s.sample.applyEdge with maskLatent := false } := keeps rfl rfl rfl rfl
    exact trans (edge _) (trans latches (trans (enter _ _ _ _) (late _)))
  · have latches : R s.sample.applyEdge (s.sample.applyEdge.begin i) := keeps rfl rfl rfl rfl
    exact trans (edge _) (trans latches (trans (instr hu) (late _)))

/-! ### What every step leaves -/

/-- The configuration, the number of the draws and the queue of inputs are the same. -/
structure SameFuture (s t : State) : Prop where
  config : t.config = s.config
  draws : t.draws = s.draws
  inputs : t.inputs = s.inputs

theorem SameFuture.trans {s t u : State} (h : SameFuture s t) (h' : SameFuture t u) : SameFuture s u :=
  ⟨h'.config.trans h.config, h'.draws.trans h.draws, h'.inputs.trans h.inputs⟩

theorem SameFuture.enter (s : State) (ret : Addr) (b : Bool) (vec : Addr) : SameFuture s (s.enter ret b vec) := by
  constructor <;> simp [State.enter, State.pushAddr]

theorem SameFuture.exec {i : Instr} {s t : State} (h : exec i s = .next t) : SameFuture s t := by
  have hframe := (meaning_of_exec_next h).frame
  have hconfig := congrArg State.config hframe
  have hdraws := congrArg State.draws hframe
  have hinputs := congrArg State.inputs hframe
  exact ⟨hconfig, hdraws, hinputs⟩

/-- Settles O19: only taking in the inputs touches any of the three. -/
theorem stepKeepsConfiguration : Obligations.StepKeepsConfiguration := by
  intro s t h
  obtain ⟨hconfig, hdraws, hinputs⟩ := step_induction (R := SameFuture) SameFuture.trans (fun _ hc hd hi => ⟨hc, hd, hi⟩)
    SameFuture.enter SameFuture.exec h
  exact ⟨by simp [hconfig], by simp [hdraws], by simp [hinputs]⟩

/-- From `s` to `t` the configuration is kept, a canonical memory stays canonical and no stored byte changes but in ram. -/
structure WritesRamOnly (s t : State) : Prop where
  config : t.config = s.config
  mem_wf : s.mem.wf = true → t.mem.wf = true
  peek : s.mem.wf = true → ∀ a, s.kindAt a ≠ .ram → t.peek a = s.peek a

theorem WritesRamOnly.trans {s t u : State} (h : WritesRamOnly s t) (h' : WritesRamOnly t u) : WritesRamOnly s u where
  config := h'.config.trans h.config
  mem_wf hw := h'.mem_wf (h.mem_wf hw)
  peek hw a ha := (h'.peek (h.mem_wf hw) a (State.kindAt_congr h.config a ▸ ha)).trans (h.peek hw a ha)

/-- What keeps the configuration and memory writes nothing. -/
theorem WritesRamOnly.of_mem_eq {s t : State} (hm : t.mem = s.mem) (hc : t.config = s.config) : WritesRamOnly s t where
  config := hc
  mem_wf hw := hm ▸ hw
  peek _ a _ := by simp [State.peek, State.phys_congr hc, hm]

theorem WritesRamOnly.write (s : State) (a : Addr) (v : Byte) : WritesRamOnly s (s.write a v) where
  config := s.write_config a v
  mem_wf hw := State.write_mem_wf hw a v
  peek hw b hb := by
    rw [State.peek_write hw, if_neg]
    rintro ⟨ha, hab⟩
    exact hb (State.kindAt_of_phys hab ▸ ha)

theorem WritesRamOnly.push (s : State) (v : Byte) : WritesRamOnly s (s.push v) :=
  (WritesRamOnly.write s (stackAddr s.sp) v).trans (.of_mem_eq rfl rfl)

theorem WritesRamOnly.enter (s : State) (ret : Addr) (b : Bool) (vec : Addr) : WritesRamOnly s (s.enter ret b vec) :=
  (((WritesRamOnly.push s (hiByte ret)).trans (.push _ (loByte ret))).trans (.push _ (s.p.image b))).trans
    (.of_mem_eq (s.enter_mem ret b vec) (by simp [State.enter, State.pushAddr]))

/-- A store, the store of a read-modify-write, a push, two pushes or three are all an instruction writes. -/
theorem Meaning.writesRamOnly {s u : State} {k : Mnemonic} {o : Operand} {r : Result} (h : Meaning s k o r u) :
    WritesRamOnly s u := by
  cases h with
  | sta | stx | sty | asl | lsr | rol | ror | inc | dec => exact (WritesRamOnly.write s _ _).trans (.of_mem_eq rfl rfl)
  | pha | php => exact (WritesRamOnly.push s _).trans (.of_mem_eq rfl rfl)
  | jsr => exact ((WritesRamOnly.push s _).trans (.push _ _)).trans (.of_mem_eq rfl rfl)
  | brk => exact .enter s _ _ _
  | _ => exact .of_mem_eq rfl rfl

/-- A DMA agent changes ram only (log entry 12). -/
theorem WritesRamOnly.sample (s : State) : WritesRamOnly s s.sample where
  config := s.sample_config
  mem_wf := State.sample_mem_wf
  peek hw a ha := by
    unfold State.peek
    rw [State.phys_congr s.sample_config]
    unfold State.sample State.applyInputs
    split
    next => rfl
    next e rest _ =>
      have hget := State.get_afterDma (s := { s with draws := s.draws + 1 }) hw e.dma (s.phys_lt a)
      rw [if_neg fun hc => ha hc.2] at hget
      exact hget

/-- Settles O24: a DMA agent's bytes and every store and push of the step land in ram only. -/
theorem stepWritesRamOnly : Obligations.StepWritesRamOnly := by
  intro s t a hw h ha
  have hstep : WritesRamOnly s.sample t :=
    step_induction (R := WritesRamOnly) WritesRamOnly.trans (fun hm hc _ _ => .of_mem_eq hm hc) WritesRamOnly.enter
      (fun hx => (meaning_of_exec_next hx).writesRamOnly) h
  exact ((WritesRamOnly.sample s).trans hstep).peek hw a ha

/-! ### The state after reset -/

/-- Settles O17: the reset memory lists nothing and no pin asks for anything. -/
theorem resetHasTheInvariant : Obligations.ResetHasTheInvariant := by
  unfold Obligations.ResetHasTheInvariant State.wf
  decide

/-- Settles O18: the vector lies in ram, which the reset memory leaves at zero. -/
theorem resetState : Obligations.ResetState := by
  have hram (a : Addr) : State.reset.kindAt a = .ram := rfl
  refine ⟨rfl, ?_, rfl⟩
  rw [State.readVector, State.read_ram (hram _) rfl, State.read_ram (hram _) rfl]
  rfl

end Sys2Proof.Machine

end

/-! The statements of spec/20_memory.md. Memory is written by `State.write` alone; an access is refused exactly where the model's
statements say so (`touchesDevice_iff` and what follows it). -/

section

namespace Sys2Proof.Machine

/-! ### Canonical memories -/

/-- The lowest address listed in a canonical memory is listed, or undercut, in every canonical memory that reads like it. -/
theorem Memory.head_le_of_get_eq {a b : Nat} {v w : Byte} {m n : Memory} (hm : Memory.wf ((a, v) :: m) = true)
    (hn : Memory.wf ((b, w) :: n) = true) (h : Memory.get ((a, v) :: m) a = Memory.get ((b, w) :: n) a) : b ≤ a := by
  obtain ⟨-, hv, -⟩ := (Memory.wf_cons_iff a v m).1 hm
  obtain ⟨hb, -, -⟩ := (Memory.wf_cons_iff b w n).1 hn
  by_contra hab
  have hbelow : Memory.above a ((b, w) :: n) = true :=
    (Memory.above_cons_iff a b w n).2 ⟨by omega, Memory.above_mono (by omega) hb⟩
  rw [Memory.get_of_above hbelow, Memory.get, if_pos rfl] at h
  exact hv h

/-- Memories that read alike behind one and the same lowest cell read alike without it. -/
theorem Memory.get_eq_of_cons {a : Nat} {v : Byte} {m n : Memory} (hm : Memory.above a m = true)
    (hn : Memory.above a n = true) {x : Nat} (h : Memory.get ((a, v) :: m) x = Memory.get ((a, v) :: n) x) :
    m.get x = n.get x := by
  by_cases hx : x = a
  · rw [hx, Memory.get_of_above hm, Memory.get_of_above hn]
  · simpa only [Memory.get, if_neg hx] using h

/-- Settles O25, by induction on the two lists: their heads are equal, so their tails read alike. -/
theorem canonicalMemoriesAreEqual : Obligations.CanonicalMemoriesAreEqual := by
  intro m
  induction m with
  | nil =>
    rintro (_ | ⟨⟨b, w⟩, n⟩) - hn h
    · rfl
    · obtain ⟨-, hw, -⟩ := (Memory.wf_cons_iff b w n).1 hn
      exact absurd (by simpa [Memory.get] using (h b).symm) hw
  | cons c m ih =>
    obtain ⟨a, v⟩ := c
    rintro (_ | ⟨⟨b, w⟩, n⟩) hm hn h
    · obtain ⟨-, hv, -⟩ := (Memory.wf_cons_iff a v m).1 hm
      exact absurd (by simpa [Memory.get] using h a) hv
    · obtain rfl : a = b :=
        Nat.le_antisymm (Memory.head_le_of_get_eq hn hm (h b).symm) (Memory.head_le_of_get_eq hm hn (h a))
      obtain rfl : v = w := by simpa [Memory.get] using h a
      obtain ⟨ham, -, hmw⟩ := (Memory.wf_cons_iff a v m).1 hm
      obtain ⟨han, -, hnw⟩ := (Memory.wf_cons_iff a v n).1 hn
      rw [ih n hmw hnw fun x => Memory.get_eq_of_cons ham han (h x)]

/-! ### Reading what was stored -/

/-- Two states with the same configuration, draws and agent's bytes read alike where they store alike. -/
theorem State.read_of_peek_eq {s t : State} (hc : t.config = s.config) (hd : t.draws = s.draws)
    (hr : t.dmaReads = s.dmaReads) {a : Addr} (hp : t.peek a = s.peek a) (u : ByteUse) : t.read u a = s.read u a := by
  simp [State.read, State.dmaByte, State.kindAt_congr hc, hc, hd, hr, hp]

/-- Where no DMA agent is, a read of ram gives what was stored there last (spec/20_memory.md R52, R53). -/
theorem State.read_write_same {s : State} (hw : s.mem.wf = true) (hd : s.config.dmaAgent = false) {a : Addr}
    (ha : s.kindAt a = .ram) (v : Byte) (u : ByteUse) : (s.write a v).read u a = v := by
  rw [State.read_ram (by simpa using ha) (by simpa using hd), State.peek_write hw, if_pos ⟨ha, rfl⟩]

/-- A store is not seen at another location, nor anywhere when its address is not ram (spec/20_memory.md R53). -/
theorem State.read_write_other {s : State} (hw : s.mem.wf = true) {a b : Addr}
    (h : s.phys a ≠ s.phys b ∨ s.kindAt a ≠ .ram) (v : Byte) (u : ByteUse) : (s.write a v).read u b = s.read u b := by
  have hpeek : (s.write a v).peek b = s.peek b := by
    rw [State.peek_write hw, if_neg]
    rintro ⟨hram, hsame⟩
    exact h.elim (· hsame) (· hram)
  exact State.read_of_peek_eq (by simp) (by simp) (by simp) hpeek u

/-- Settles O26: a fetch is a read at PC. -/
theorem storeIsSeenByTheNextRead : Obligations.StoreIsSeenByTheNextRead := by
  intro s a b v use hw hd
  refine ⟨fun ha => State.read_write_same hw hd ha v use, fun h => State.read_write_other hw h v use, fun ha k hk => ?_⟩
  rw [State.fetchByte, State.write_pc, hk]
  exact State.read_write_same hw hd ha v (.fetch k)

/-- Addresses the platform cannot tell apart are read alike. -/
theorem State.read_of_phys {s : State} {a b : Addr} (h : s.phys a = s.phys b) (u : ByteUse) : s.read u a = s.read u b := by
  simp [State.read, State.kindAt_of_phys h, State.peek, h]

/-- Addresses the platform cannot tell apart are written alike. -/
theorem State.write_of_phys {s : State} {a b : Addr} (h : s.phys a = s.phys b) (v : Byte) : s.write a v = s.write b v := by
  rw [State.write_eq, State.write_eq, State.kindAt_of_phys h, h]

/-- Settles O27: the thirteen address pins carry the address modulo 8192. -/
theorem um6507SeesThirteenAddressBits : Obligations.Um6507SeesThirteenAddressBits := by
  intro s a b v use hv h
  have hphys : s.phys a = s.phys b := by
    rw [State.phys, State.phys, hv]
    exact h
  exact ⟨State.kindAt_of_phys hphys, State.read_of_phys hphys use, State.write_of_phys hphys v⟩

/-! ### Who writes memory -/

section Meaning
variable {s t u : State} {k : Mnemonic} {o : Operand} {r : Result}

/-- Memory is written by the stores, the read-modify-writes and the pushes (spec/20_memory.md R66). -/
theorem Meaning.writes_mem (h : Meaning s k o r u) (hm : u.mem ≠ s.mem) : writesMemory k := by
  cases h with
  | sta | stx | sty | asl | lsr | rol | ror | inc | dec | pha | php | jsr | brk => simp [writesMemory]
  | _ => exact absurd rfl hm

/-- A relation of two states that passes along a chain, and holds of every update that leaves memory and configuration and of
every store. -/
structure ClosedUnderStores (R : State → State → Prop) : Prop where
  trans : ∀ {s t u}, R s t → R t u → R s u
  keeps : ∀ {s t : State}, t.mem = s.mem → t.config = s.config → R s t
  write : ∀ (s : State) a v, R s (s.write a v)

section ClosedUnderStores
variable {R : State → State → Prop}

theorem ClosedUnderStores.push (hR : ClosedUnderStores R) (s : State) (v : Byte) : R s (s.push v) :=
  hR.trans (hR.write s (stackAddr s.sp) v) (hR.keeps rfl rfl)

theorem ClosedUnderStores.enter (hR : ClosedUnderStores R) (s : State) (ret : Addr) (b : Bool) (vec : Addr) :
    R s (s.enter ret b vec) :=
  hR.trans (hR.push _ _) <| hR.trans (hR.push _ _) <| hR.trans (hR.push _ _) <|
    hR.keeps (s.enter_mem ret b vec) (by simp [State.enter, State.pushAddr])

/-- All that an instruction does to memory is to store, to push, or to enter a break. -/
theorem ClosedUnderStores.instr (hR : ClosedUnderStores R) (h : Meaning s k o r u) : R s u := by
  cases h with
  | sta | stx | sty | asl | lsr | rol | ror | inc | dec => exact hR.trans (hR.write s _ _) (hR.keeps rfl rfl)
  | pha | php => exact hR.trans (hR.push s _) (hR.keeps rfl rfl)
  | jsr => exact hR.trans (hR.push s _) (hR.trans (hR.push _ _) (hR.keeps rfl rfl))
  | brk => exact hR.enter s _ _ _
  | _ => exact hR.keeps rfl rfl

/-- After it has taken in its inputs, all that a step does to memory is to store. -/
theorem ClosedUnderStores.step (hR : ClosedUnderStores R) (h : step s = .next t) : R s.sample t :=
  step_induction (R := R) hR.trans (fun hm hc _ _ => hR.keeps hm hc) hR.enter
    (fun hx => hR.instr (meaning_of_exec_next hx)) h

end ClosedUnderStores

end Meaning

/-- Settles O23: `Meaning.writes_mem` and `Meaning.frame`. -/
theorem onlyStoresAndPushesWriteMemory : Obligations.OnlyStoresAndPushesWriteMemory := by
  intro i s t h
  have hm := meaning_of_exec_next h
  exact ⟨fun hk => by_contra fun hne => hk (hm.writes_mem hne), hm.frame⟩

/-! ### The invariant -/

/-- The memory is in canonical form and inside the platform's space (spec/20_memory.md R50, R51). -/
def State.MemoryInPlace (s : State) : Prop :=
  s.mem.wf = true ∧ s.mem.within s.config.variant.addressSpace = true

/-- No request stands on a pin the member does not have or the platform does not use, a late S.O. edge among the requests
(spec/60_exceptions.md R246, R250). -/
structure State.RequestsInPlace (s : State) : Prop where
  nmi : s.nmiPending = true → s.config.variant.hasNmi = true
  irq : s.config.variant.hasIrq = false → s.irqLine = .high
  edge : s.soEdge = true → s.soActive = true
  late : s.soLate = true → s.soActive = true

/-- The invariant in its two parts. -/
theorem State.wf_iff (s : State) : s.wf = true ↔ s.MemoryInPlace ∧ s.RequestsInPlace ∧ s.soLate = false := by
  have himp (a b : Bool) : (a || !b) = true ↔ (b = true → a = true) := by cases a <;> cases b <;> decide
  have hirq : (s.config.variant.hasIrq || decide (s.irqLine = .high)) = true ↔
      (s.config.variant.hasIrq = false → s.irqLine = .high) := by
    cases s.config.variant.hasIrq <;> simp
  simp only [State.wf, Bool.and_eq_true, himp, hirq, Bool.not_eq_true', State.MemoryInPlace]
  constructor
  · rintro ⟨⟨⟨⟨hmem, hnmi⟩, hirq⟩, hedge⟩, hlate⟩
    exact ⟨hmem, ⟨hnmi, hirq, hedge, by simp [hlate]⟩, hlate⟩
  · rintro ⟨hmem, ⟨hnmi, hirq, hedge, -⟩, hlate⟩
    exact ⟨⟨⟨⟨hmem, hnmi⟩, hirq⟩, hedge⟩, hlate⟩

/-- The configuration is kept, and memory in place stays in place. -/
structure KeepsMemoryInPlace (s t : State) : Prop where
  config : t.config = s.config
  inPlace : s.MemoryInPlace → t.MemoryInPlace

theorem KeepsMemoryInPlace.trans {s t u : State} (h : KeepsMemoryInPlace s t) (h' : KeepsMemoryInPlace t u) :
    KeepsMemoryInPlace s u :=
  ⟨h'.config.trans h.config, h'.inPlace ∘ h.inPlace⟩

theorem KeepsMemoryInPlace.of_mem_eq {s t : State} (hm : t.mem = s.mem) (hc : t.config = s.config) :
    KeepsMemoryInPlace s t :=
  ⟨hc, fun h => by rwa [State.MemoryInPlace, hm, hc]⟩

theorem KeepsMemoryInPlace.write (s : State) (a : Addr) (v : Byte) : KeepsMemoryInPlace s (s.write a v) where
  config := s.write_config a v
  inPlace h := by
    obtain ⟨hwf, hwithin⟩ := h
    rw [State.MemoryInPlace, State.write_config]
    exact ⟨State.write_mem_wf hwf a v, State.write_mem_within hwithin a v⟩

/-- A DMA agent writes inside the platform's space (spec/20_memory.md R69). -/
theorem KeepsMemoryInPlace.sample (s : State) : KeepsMemoryInPlace s s.sample where
  config := s.sample_config
  inPlace h := by
    obtain ⟨hwf, hwithin⟩ := h
    rw [State.MemoryInPlace, State.sample_config]
    exact ⟨State.sample_mem_wf hwf, State.sample_mem_within hwithin⟩

theorem KeepsMemoryInPlace.closedUnderStores : ClosedUnderStores KeepsMemoryInPlace :=
  ⟨.trans, .of_mem_eq, .write⟩

/-- Every request in `t` comes from one in `s`; a late S.O. edge may have become an edge. -/
structure AsksNoMore (s t : State) : Prop where
  config : t.config = s.config
  irq : t.irqLine = s.irqLine
  nmi : t.nmiPending = true → s.nmiPending = true
  edge : t.soEdge = true → s.soEdge = true ∨ s.soLate = true
  late : t.soLate = true → s.soLate = true

theorem AsksNoMore.trans {s t u : State} (h : AsksNoMore s t) (h' : AsksNoMore t u) : AsksNoMore s u where
  config := h'.config.trans h.config
  irq := h'.irq.trans h.irq
  nmi := h.nmi ∘ h'.nmi
  edge hu := (h'.edge hu).elim h.edge (.inr ∘ h.late)
  late := h.late ∘ h'.late

/-- What asks no more than requests in place is in place. -/
theorem AsksNoMore.requestsInPlace {s t : State} (h : AsksNoMore s t) (hs : s.RequestsInPlace) : t.RequestsInPlace := by
  have hactive : t.soActive = s.soActive := by simp [State.soActive, h.config]
  constructor
  · exact fun hn => h.config ▸ hs.nmi (h.nmi hn)
  · exact fun hi => h.irq.trans (hs.irq (h.config ▸ hi))
  · exact fun he => hactive.trans ((h.edge he).elim hs.edge hs.late)
  · exact fun hl => hactive.trans (hs.late (h.late hl))

/-- What leaves the pins, the latches and the configuration asks no more. -/
theorem AsksNoMore.of_eq {s t : State} (hc : t.config = s.config) (hi : t.irqLine = s.irqLine)
    (hn : t.nmiPending = s.nmiPending) (he : t.soEdge = s.soEdge) (hl : t.soLate = s.soLate) : AsksNoMore s t :=
  ⟨hc, hi, (hn ▸ ·), fun h => .inl (he ▸ h), (hl ▸ ·)⟩

theorem AsksNoMore.enter (s : State) (ret : Addr) (b : Bool) (vec : Addr) : AsksNoMore s (s.enter ret b vec) := by
  apply AsksNoMore.of_eq <;> simp [State.enter, State.pushAddr]

/-- No instruction touches a pin or a latch (spec/10_state.md R33). -/
theorem AsksNoMore.exec {i : Instr} {s t : State} (h : exec i s = .next t) : AsksNoMore s t := by
  have hframe := (meaning_of_exec_next h).frame
  rw [State.mk.injEq] at hframe
  apply AsksNoMore.of_eq <;> simp_all

theorem AsksNoMore.applyEdge (s : State) : AsksNoMore s s.applyEdge := by
  rw [State.applyEdge_eq]
  exact ⟨rfl, rfl, id, nofun, id⟩

theorem AsksNoMore.applyLate (s : State) : AsksNoMore s s.applyLate := by
  rw [State.applyLate_eq]
  exact ⟨rfl, rfl, id, .inl, nofun⟩

/-- A late S.O. edge of a step that computes no V becomes an edge. -/
theorem AsksNoMore.keepLate (s : State) : AsksNoMore s s.keepLate :=
  ⟨rfl, rfl, id, by simp [State.keepLate], nofun⟩

@[simp] theorem State.applyLate_soLate (s : State) : s.applyLate.soLate = false := by rw [State.applyLate_eq]

/-- After it has taken in its inputs a step makes no request, and it uses up the late S.O. edge. -/
theorem step_asksNoMore {s t : State} (h : step s = .next t) : AsksNoMore s.sample t ∧ t.soLate = false := by
  rcases step_next_cases h with
    ⟨-, rfl⟩ | ⟨-, rfl⟩ | ⟨-, rfl⟩ | ⟨-, u, hu, rfl⟩ | ⟨-, u, hu, rfl⟩ | ⟨-, i, u, -, hu, rfl⟩
  · exact ⟨(AsksNoMore.keepLate _).trans (.of_eq rfl rfl rfl rfl rfl), rfl⟩
  · exact ⟨⟨rfl, rfl, nofun, nofun, nofun⟩, rfl⟩
  · exact ⟨.keepLate _, rfl⟩
  · rw [State.takeNmi_next hu]
    have cleared (s : State) : AsksNoMore s { s with nmiPending := false, maskLatent := false } :=
      ⟨rfl, rfl, nofun, .inl, id⟩
    exact ⟨(AsksNoMore.applyEdge _).trans ((cleared _).trans ((AsksNoMore.enter _ _ _ _).trans (.applyLate _))), by simp⟩
  · rw [State.takeIrq_next hu]
    have recorded (s : State) : AsksNoMore s { s with maskLatent := false } := .of_eq rfl rfl rfl rfl rfl
    exact ⟨(AsksNoMore.applyEdge _).trans ((recorded _).trans ((AsksNoMore.enter _ _ _ _).trans (.applyLate _))), by simp⟩
  · have recorded (s : State) : AsksNoMore s (s.begin i) := .of_eq rfl rfl rfl rfl rfl
    exact ⟨(AsksNoMore.applyEdge _).trans ((recorded _).trans ((AsksNoMore.exec hu).trans (.applyLate _))), by simp⟩

/-- A boundary takes in requests on pins that are there and used only (spec/60_exceptions.md R246, R250). -/
theorem State.RequestsInPlace.sample {s : State} (h : s.RequestsInPlace) : s.sample.RequestsInPlace := by
  obtain ⟨hnmi, hirq, hedge, -⟩ := h
  unfold State.sample State.applyInputs
  split
  next => exact ⟨hnmi, hirq, hedge, nofun⟩
  next e rest _ =>
    constructor
    · intro hn
      obtain hold | hnew := Bool.or_eq_true_iff.1 hn
      · exact hnmi hold
      · exact (Bool.and_eq_true_iff.1 hnew).1
    · intro hnone
      exact if_neg (by simpa using hnone)
    · intro he
      obtain hold | hnew := Bool.or_eq_true_iff.1 he
      · exact hedge hold
      · exact (Bool.and_eq_true_iff.1 hnew).1
    · exact fun hl => (Bool.and_eq_true_iff.1 hl).1

/-- Settles O16: memory by what a step's inputs and stores keep, requests by the step's six events. -/
theorem stepKeepsTheInvariant : Obligations.StepKeepsTheInvariant := by
  intro s t hs h
  obtain ⟨hmem, hreq, -⟩ := s.wf_iff.1 hs
  have hmemory := (KeepsMemoryInPlace.sample s).trans (KeepsMemoryInPlace.closedUnderStores.step h)
  obtain ⟨hasks, hlate⟩ := step_asksNoMore h
  exact t.wf_iff.2 ⟨hmemory.inPlace hmem, hasks.requestsInPlace hreq.sample, hlate⟩

/-! ### Which accesses reach a device with side effects -/

/-- R59's question of a list of addresses. -/
theorem State.touchesDevice_iff (s : State) (addrs : List Addr) :
    s.touchesDevice addrs = true ↔ ∃ a ∈ addrs, s.sideEffectAt a := by
  simp [State.touchesDevice, State.sideEffectAt]

/-- `zext_16` of a byte of page zero, in numbers (spec/40_addressing_modes.md R104). -/
theorem zext16_eq_ofNat (b : Byte) : zext16 b = BitVec.ofNat 16 b.toNat := by
  apply BitVec.eq_of_toNat_eq
  rw [zext16_toNat, BitVec.toNat_ofNat]
  have := b.isLt
  omega

/-- The two bytes of a pointer in page zero, in numbers (spec/40_addressing_modes.md R110, R111). -/
theorem pointerAddrs_eq (p : Byte) :
    pointerAddrs p = [BitVec.ofNat 16 p.toNat, BitVec.ofNat 16 ((p.toNat + 1) % 256)] := by
  simp [pointerAddrs, zext16_eq_ofNat]

/-- An instruction accesses the bytes of its pointer, if it has one, and its operand. -/
theorem State.accessed_eq (s : State) (m : MemMode) : s.accessed m = s.pointerBytes m ++ [s.ea m] := by
  cases m with
  | indexedIndirectX | indirectIndexedY => simp [State.accessed, State.pointerBytes, pointerAddrs_eq]
  | _ => rfl

theorem State.modifyTouches_iff (s : State) (m : MemMode) : s.modifyTouches m = true ↔ s.sideEffectOperand m := by
  simp [State.modifyTouches, State.touchesDevice_iff, State.accessed_eq, State.sideEffectOperand, or_comm]

theorem State.modeTouches_iff (s : State) (m : MemMode) : s.modeTouches m = true ↔ s.refusedOperand m := by
  rw [State.refusedOperand, ← State.modifyTouches_iff, State.modeTouches, State.modifyTouches]
  simp

theorem State.pushTouches_iff (s : State) (n : Nat) : s.pushTouches n = true ↔ s.refusedPush n := by
  simp [State.pushTouches, State.touchesDevice_iff, State.refusedPush]

theorem State.pullTouches_iff (s : State) (n : Nat) : s.pullTouches n = true ↔ s.refusedPull n := by
  simp [State.pullTouches, State.touchesDevice_iff, State.refusedPull]

/-- The bytes of a JSR and the bytes its two pushes write (spec/44_branch_jump.md R189). -/
theorem State.jsrOverlaps_iff (s : State) : s.jsrOverlaps = true ↔ s.underPushes := by
  simp only [State.jsrOverlaps, State.underPushes, List.any_cons, List.any_nil, Bool.or_false, Bool.or_eq_true,
    decide_eq_true_eq, Nat.exists_lt_succ_left, Nat.not_lt_zero, false_and, exists_false, or_false]
  simp

/-! ### Stack instructions on a plain stack -/

section PlainStack
variable {s : State}

theorem PlainStack.not_pushTouches (h : PlainStack s) (n : Nat) : s.pushTouches n = false := by
  rw [← Bool.not_eq_true, State.pushTouches_iff]
  rintro ⟨k, -, hk⟩
  simp [State.sideEffectAt, h.2] at hk

theorem PlainStack.not_pullTouches (h : PlainStack s) (n : Nat) : s.pullTouches n = false := by
  rw [← Bool.not_eq_true, State.pullTouches_iff]
  rintro ⟨k, -, hk⟩
  simp [State.sideEffectAt, h.2] at hk

/-- Whether the stack is plain depends on the configuration alone. -/
theorem PlainStack.congr {t : State} (h : PlainStack s) (hc : t.config = s.config) : PlainStack t :=
  ⟨by rw [hc]; exact h.1, fun sp => (State.kindAt_congr hc _).trans (h.2 sp)⟩

/-- On a plain stack a push completes. -/
theorem PlainStack.pushByte_eq (h : PlainStack s) (v : Byte) : pushByte v s = .next ((s.push v).advance 1) := by
  rw [pushByte, h.not_pushTouches, unlessDevice_false]

/-- The next pull gives the byte that was pushed (spec/20_memory.md R60, R61). -/
theorem PlainStack.pulled_push (h : PlainStack s) (hw : s.mem.wf = true) (v : Byte) (u : ByteUse) :
    ((s.push v).advance 1).pulled u 0 = v := by
  have hsame : ((s.push v).advance 1).pulled u 0 = (s.write (stackAddr s.sp) v).read u (stackAddr s.sp) := by
    rw [State.pulled, State.advance_sp, State.push_sp]
    simp only [Nat.zero_add, BitVec.ofNat_eq_ofNat, BitVec.sub_add_cancel]
    exact State.read_congr rfl rfl rfl rfl u _
  rw [hsame, State.read_write_same hw h.1 (h.2 s.sp)]

end PlainStack

/-- N and Z of a result, in numbers (spec/10_state.md R30). -/
theorem Status.setNZ_eq_fromResult (p : Status) (v : Byte) : p.setNZ v = p.fromResult v := by
  rw [Status.setNZ, Status.fromResult, bit7_eq, isZero_eq]

/-- Pulling the pushed image of P gives every flag back (spec/10_state.md R28, R29). -/
@[simp] theorem Status.ofByte_image (p : Status) (b : Bool) : Status.ofByte (p.image b) = p := by
  obtain ⟨n, v, d, i, z, c⟩ := p
  revert n v d i z c b
  decide

/-- Settles O55: the pull reads the pushed byte back, and S and the flags or A come back with it. -/
theorem pullUndoesPush : Obligations.PullUndoesPush := by
  intro s hw hs
  have hpull (v : Byte) : ((s.push v).advance 1).pullTouches 1 = false :=
    (hs.congr (t := (s.push v).advance 1) (by simp)).not_pullTouches 1
  have hpc : s.pc + 1#16 + 1#16 = s.pc + 2#16 := by rw [BitVec.add_assoc]; rfl
  refine ⟨⟨_, _, hs.pushByte_eq s.a, (unlessDevice_next_iff _ _ _).2 ⟨hpull _, rfl⟩, ?_⟩,
    ⟨_, _, hs.pushByte_eq (s.p.image true), (unlessDevice_next_iff _ _ _).2 ⟨hpull _, rfl⟩, ?_⟩⟩
  · rw [hs.pulled_push hw, State.mk.injEq]
    simp [hpc, Status.setNZ_eq_fromResult]
  · rw [hs.pulled_push hw, State.mk.injEq]
    simp [hpc]

/-! ### Refused accesses -/

section Refused
variable {s u : State} {k : Mnemonic} {o : Operand} {r : Result} {m : MemMode}

theorem State.reading_refused (h : s.refusedOperand m) (f : Byte → State) :
    s.reading (.memory m) f = .refused .deviceSideEffects :=
  (unlessDevice_refused_iff _ _ _).2 ⟨(s.modeTouches_iff m).2 h, rfl⟩

theorem State.storing_refused (h : s.refusedOperand m) (v : Byte) : s.storing m v = .refused .deviceSideEffects :=
  (unlessDevice_refused_iff _ _ _).2 ⟨(s.modeTouches_iff m).2 h, rfl⟩

theorem State.modifying_refused (h : s.sideEffectOperand m) (f : Byte → Status → Shifted) :
    s.modifying m f = .refused .deviceSideEffects :=
  (unlessDevice_refused_iff _ _ _).2 ⟨(s.modifyTouches_iff m).2 h, rfl⟩

/-- The operand of a reading instruction names the byte it reads. -/
theorem Source.operand_eq_memory {src : Source} (h : src.operand = .memory m) : src = .memory m := by
  cases src with
  | immediate => cases h
  | memory => exact congrArg Source.memory (Operand.memory.inj h)

/-- Indexed and indirect accesses: the loads, the operations on A, the compares, BIT, the stores and the read-modify-writes. -/
theorem Meaning.refused_of_refusedOperand (h : Meaning s k o r u) (ho : o = .memory m) (hk : k ∉ [.jmp, .jsr])
    (hm : s.refusedOperand m) : r = .refused .deviceSideEffects := by
  cases h with
  | lda | ldx | ldy | adc | sbc | and | ora | eor | cmp | cpx | cpy =>
    obtain rfl := Source.operand_eq_memory ho
    exact State.reading_refused hm _
  | bit =>
    cases ho
    exact State.reading_refused hm _
  | sta | stx | sty =>
    cases ho
    exact State.storing_refused hm _
  | asl | lsr | rol | ror | inc | dec =>
    cases ho
    exact State.modifying_refused hm.2 _
  | jmp | jsr => simp at hk
  | _ => cases ho

/-- Read-modify-write accesses, direct ones among them. -/
theorem Meaning.refused_of_sideEffectOperand (h : Meaning s k o r u) (ho : o = .memory m)
    (hk : k ∈ [.asl, .lsr, .rol, .ror, .inc, .dec]) (hm : s.sideEffectOperand m) : r = .refused .deviceSideEffects := by
  cases h with
  | asl | lsr | rol | ror | inc | dec =>
    cases ho
    exact State.modifying_refused hm _
  | aslA | lsrA | rolA | rorA => cases ho
  | _ => simp at hk

end Refused

/-- `hi:lo` in numbers (spec/20_memory.md R56). -/
theorem joinBytes_eq_word (lo hi : Byte) : joinBytes lo hi = word lo hi := by
  apply BitVec.eq_of_toNat_eq
  rw [joinBytes_toNat, word, BitVec.toNat_ofNat]
  have := lo.isLt
  have := hi.isLt
  omega

section JumpIndirect
variable {s : State} {ptr : Addr}

theorem loByte_eq_iff (a : Addr) : loByte a = 0xFF ↔ a.toNat % 256 = 255 := by
  rw [BitVec.toNat_eq, loByte_toNat]
  rfl

/-- A pointer inside a page, or any pointer where the configuration does not refuse the page's end (R112). -/
theorem State.refusesPointer_eq_false (h : ptr.toNat % 256 = 255 → s.config.jmpIndWrap ≠ .refuse) :
    s.refusesPointer ptr = false := by
  simp only [← Bool.not_eq_true, State.refusesPointer, Bool.and_eq_true, decide_eq_true_eq, loByte_eq_iff]
  exact fun ⟨hend, hrefuse⟩ => h hend hrefuse

/-- Inside a page the high byte of the target is the next byte. -/
theorem State.indirectHighAddr_inside (h : ptr.toNat % 256 ≠ 255) : s.indirectHighAddr ptr = ptr + 1 :=
  if_neg (mt (loByte_eq_iff ptr).1 h)

theorem State.indirectHighAddr_carry (h : ptr.toNat % 256 = 255) (hc : s.config.jmpIndWrap = .carry) :
    s.indirectHighAddr ptr = ptr + 1 := by
  rw [State.indirectHighAddr, if_pos ((loByte_eq_iff ptr).2 h), hc]

theorem State.indirectHighAddr_noCarry (h : ptr.toNat % 256 = 255) (hc : s.config.jmpIndWrap = .noCarry) :
    s.indirectHighAddr ptr = ptr - 255 := by
  rw [State.indirectHighAddr, if_pos ((loByte_eq_iff ptr).2 h), hc]

/-- Under `either` a free bit decides (log entry 9). -/
theorem State.indirectHighAddr_either (h : ptr.toNat % 256 = 255) (hc : s.config.jmpIndWrap = .either) :
    s.indirectHighAddr ptr = ptr + 1 ∨ s.indirectHighAddr ptr = ptr - 255 := by
  rw [State.indirectHighAddr, if_pos ((loByte_eq_iff ptr).2 h), hc]
  exact ite_eq_or_eq _ _ _

/-- JMP (indirect) where the configuration does not refuse its pointer. -/
theorem execJmpInd_eq (h : ptr.toNat % 256 = 255 → s.config.jmpIndWrap ≠ .refuse) :
    exec (.jmpInd ptr) s =
      unlessDevice (s.touchesDevice [ptr, s.indirectHighAddr ptr]) (s.setPc (s.indirectTarget ptr)) := by
  change jumpIndirect ptr s = _
  rw [jumpIndirect, State.refusesPointer_eq_false h]
  rfl

/-- JMP (indirect) stops where one of its two reads reaches a device with side effects. -/
theorem execJmpInd_stops (h : ptr.toNat % 256 = 255 → s.config.jmpIndWrap ≠ .refuse)
    (hd : s.sideEffectAt ptr ∨ s.sideEffectAt (s.indirectHighAddr ptr)) :
    exec (.jmpInd ptr) s = .refused .deviceSideEffects := by
  rw [execJmpInd_eq h, (s.touchesDevice_iff _).2 (by simpa using hd), unlessDevice_true]

/-- JMP (indirect) goes where its two reads say where neither reaches such a device. -/
theorem execJmpInd_goes (h : ptr.toNat % 256 = 255 → s.config.jmpIndWrap ≠ .refuse) (hlow : ¬ s.sideEffectAt ptr)
    (hhigh : ¬ s.sideEffectAt (s.indirectHighAddr ptr)) :
    exec (.jmpInd ptr) s =
      .next { s with pc := word (s.read .pointerLow ptr) (s.read .pointerHigh (s.indirectHighAddr ptr)) } := by
  have htouch : s.touchesDevice [ptr, s.indirectHighAddr ptr] = false := by
    rw [← Bool.not_eq_true, State.touchesDevice_iff]
    simpa using ⟨hlow, hhigh⟩
  rw [execJmpInd_eq h, htouch, unlessDevice_false, State.indirectTarget, joinBytes_eq_word]
  rfl

/-- Under `either` with one of the two high bytes in such a device, JMP (indirect) stops or goes by the other. -/
theorem execJmpInd_either (hc : s.config.jmpIndWrap = .either) (hlow : ¬ s.sideEffectAt ptr)
    {bad good : Addr} (hhigh : s.indirectHighAddr ptr = bad ∨ s.indirectHighAddr ptr = good)
    (hbad : s.sideEffectAt bad) (hgood : ¬ s.sideEffectAt good) :
    exec (.jmpInd ptr) s = .refused .deviceSideEffects ∨
      exec (.jmpInd ptr) s =
        .next { s with pc := word (s.read .pointerLow ptr) (s.read .pointerHigh good) } := by
  have hset : ptr.toNat % 256 = 255 → s.config.jmpIndWrap ≠ .refuse := fun _ => by simp [hc]
  obtain rfl | rfl := hhigh
  · exact .inl (execJmpInd_stops hset (.inr hbad))
  · exact .inr (execJmpInd_goes hset hlow hgood)

end JumpIndirect

section Stack
variable {s : State}

/-- A push instruction with an access R59 refuses. -/
theorem unlessDevice_of_refusedPush {n : Nat} (h : s.refusedPush n) (t : State) :
    unlessDevice (s.pushTouches n) t = .refused .deviceSideEffects := by
  rw [(s.pushTouches_iff n).2 h, unlessDevice_true]

/-- A pull instruction with an access R59 refuses. -/
theorem unlessDevice_of_refusedPull {n : Nat} (h : s.refusedPull n) (t : State) :
    unlessDevice (s.pullTouches n) t = .refused .deviceSideEffects := by
  rw [(s.pullTouches_iff n).2 h, unlessDevice_true]

/-- JSR asks R189's question before R59's. -/
theorem jumpSubroutine_of_refusedPush (h : s.refusedPush 2) (hu : ¬ s.underPushes) (addr : Addr) :
    jumpSubroutine addr s = .refused .deviceSideEffects := by
  have hover : s.jsrOverlaps = false := by rwa [← Bool.not_eq_true, State.jsrOverlaps_iff]
  rw [jumpSubroutine, hover]
  exact unlessDevice_of_refusedPush h _

end Stack

/-- Settles O60: modes and read-modify-writes by the cases of `Meaning`, JMP (indirect) by its setting, the stack by what each
instruction pushes or pulls. -/
theorem sideEffectDevicesAreRefused : Obligations.SideEffectDevicesAreRefused := by
  refine ⟨fun s i m ho hk hm => ?_, fun s i m ho hk hm => ?_, fun s a => ⟨fun ha hd => ?_, fun ha => ?_⟩, fun s addr => ?_⟩
  · obtain ⟨u, hu⟩ := exec_meaning s i
    exact hu.refused_of_refusedOperand ho hk hm
  · obtain ⟨u, hu⟩ := exec_meaning s i
    exact hu.refused_of_sideEffectOperand ho hk hm
  · exact execJmpInd_stops (absurd · ha) (by rwa [State.indirectHighAddr_inside ha])
  · refine ⟨fun hc hd => execJmpInd_stops (fun _ => hc) (.inl hd), fun hc hd => ?_, fun hc hd => ?_, fun hc hlow => ?_⟩
    · exact execJmpInd_stops (fun _ => by simp [hc]) (.inr (by rwa [State.indirectHighAddr_carry ha hc]))
    · exact execJmpInd_stops (fun _ => by simp [hc]) (.inr (by rwa [State.indirectHighAddr_noCarry ha hc]))
    · have hhigh := State.indirectHighAddr_either ha hc
      refine ⟨fun hnext hback => ?_, execJmpInd_either hc hlow hhigh, fun hnext hback => ?_⟩
      · refine execJmpInd_stops (fun _ => by simp [hc]) (.inr ?_)
        obtain h | h := hhigh <;> rwa [h]
      · exact execJmpInd_either hc hlow hhigh.symm hback hnext
  · refine ⟨fun h => ⟨unlessDevice_of_refusedPush h _, unlessDevice_of_refusedPush h _⟩,
      fun h => ⟨unlessDevice_of_refusedPull h _, unlessDevice_of_refusedPull h _⟩,
      fun h hu => jumpSubroutine_of_refusedPush h hu addr, fun h => unlessDevice_of_refusedPull h _,
      fun h => ⟨unlessDevice_of_refusedPush h _, unlessDevice_of_refusedPush h _, unlessDevice_of_refusedPush h _⟩,
      fun h => unlessDevice_of_refusedPull h _⟩

end Sys2Proof.Machine

end

/-! The statements of spec/30_encoding.md. Decoding goes by the map by opcode byte and encoding by the table by mnemonic.
`Shape.Builds` says what a decoded shape makes of the operand bytes; `Instr.shapeOf_opcode` and `encode_of_shapeOf` say that
the two tables agree, one from each side. -/

section

namespace Sys2Proof

open Machine

/-! ### The map by opcode byte, by rows -/

/-- The sixteen rows of R84's map by opcode byte. -/
def opcodeRows : List (List (Byte × Shape)) :=
  [opcodeRow0, opcodeRow1, opcodeRow2, opcodeRow3, opcodeRow4, opcodeRow5, opcodeRow6, opcodeRow7, opcodeRow8, opcodeRow9,
    opcodeRowA, opcodeRowB, opcodeRowC, opcodeRowD, opcodeRowE, opcodeRowF]

theorem opcodeMap_eq_flatten : opcodeMap = opcodeRows.flatten := by
  simp only [opcodeMap, opcodeRows, List.flatten_cons, List.flatten_nil, List.append_assoc, List.append_nil]

/-- The row a byte's high digit selects. -/
def rowOf (op : Byte) : List (Byte × Shape) := (opcodeRows[op.toNat / 16]?).getD []

/-- Every byte of the map stands in the row its high digit selects. -/
theorem opcodeRows_inPlace {n : Nat} {row : List (Byte × Shape)} (hrow : opcodeRows[n]? = some row) {e : Byte × Shape}
    (he : e ∈ row) : n = e.1.toNat / 16 := by
  have hall : (opcodeRows.zipIdx.all fun r => r.1.all fun e => Nat.beq r.2 (e.1.toNat / 16)) = true := by decide
  have hmem : (row, n) ∈ opcodeRows.zipIdx := List.mem_zipIdx_iff_getElem?.2 hrow
  exact Nat.eq_of_beq_eq_true (List.all_eq_true.1 (List.all_eq_true.1 hall _ hmem) e he)

/-- A search whose finds all lie in one of the joined lists is a search of that list. -/
theorem find?_flatten_of_unique {α : Type} {p : α → Bool} : ∀ {rows : List (List α)} {n : Nat},
    (∀ m row, rows[m]? = some row → ∀ e ∈ row, p e = true → m = n) →
    rows.flatten.find? p = ((rows[n]?).getD []).find? p
  | [], _, _ => rfl
  | row :: rows, 0, h => by
    have hrest : rows.flatten.find? p = none := by
      rw [List.find?_eq_none]
      intro e he hp
      obtain ⟨row', hrow', her⟩ := List.mem_flatten.1 he
      obtain ⟨m, hm⟩ := List.getElem?_of_mem hrow'
      exact absurd (h (m + 1) row' hm e her hp) (by omega)
    simp [hrest]
  | row :: rows, n + 1, h => by
    have hrow : row.find? p = none := by
      rw [List.find?_eq_none]
      intro e he hp
      exact absurd (h 0 row rfl e he hp) (by omega)
    have hrest := find?_flatten_of_unique (rows := rows) (n := n) fun m row' hm e he hp =>
      Nat.succ.inj (h (m + 1) row' hm e he hp)
    simp [hrow, hrest]

/-- An opcode byte is looked up in its own row. -/
theorem shapeOf_eq_row (op : Byte) : shapeOf op = ((rowOf op).find? fun e => e.1 == op).map fun e => e.2 := by
  rw [shapeOf, opcodeMap_eq_flatten, find?_flatten_of_unique, rowOf]
  intro m row hrow e he hop
  rw [opcodeRows_inPlace hrow he, beq_iff_eq.1 hop]

theorem shapeOf_of_row {op op' : Byte} {sh : Shape} (h : (rowOf op).find? (fun e => e.1 == op) = some (op', sh)) :
    shapeOf op = some sh := by
  rw [shapeOf_eq_row, h]
  rfl

/-! ### The two tables agree -/

/-- `sh.Builds bs i`: with these operand bytes the shape is this instruction (R83). -/
inductive Shape.Builds : Shape → List Byte → Instr → Prop
  | none (i) : Builds (.none i) [] i
  | byte (f b) : Builds (.byte f) [b] (f b)
  | word (f lo hi) : Builds (.word f) [lo, hi] (f (joinBytes lo hi))

/-- A two-byte operand is built from its own bytes, low byte first. -/
theorem Shape.Builds.ofAddr (f : Addr → Instr) (a : Addr) : Builds (.word f) [loByte a, hiByte a] (f a) := by
  simpa using Builds.word f (loByte a) (hiByte a)

/-- As many bytes as a shape asks for build an instruction. -/
theorem Shape.exists_builds : ∀ (sh : Shape) (bs : List Byte), bs.length = sh.operandBytes → ∃ i, sh.Builds bs i
  | .none i, [], _ => ⟨i, .none i⟩
  | .byte f, [b], _ => ⟨f b, .byte f b⟩
  | .word f, [lo, hi], _ => ⟨f (joinBytes lo hi), .word f lo hi⟩

/-- The mnemonic and the mode of what a shape builds, with its operand bytes 0. -/
def Shape.form : Shape → Mnemonic × Mode
  | .none i => (i.mnemonic, i.operand.mode)
  | .byte f => ((f 0).mnemonic, (f 0).operand.mode)
  | .word f => ((f 0).mnemonic, (f 0).operand.mode)

/-- From the table by mnemonic: the map has at an instruction's opcode byte a shape that builds it from its operand bytes. -/
theorem Instr.shapeOf_opcode (i : Instr) :
    ∃ sh, shapeOf i.opcode = some sh ∧ sh.Builds i.operand.bytes i ∧ sh.form = (i.mnemonic, i.operand.mode) := by
  -- Each lookup is evaluated at a literal byte.
  cases i <;> dsimp only [Instr.opcode]
  case brk | clc | cld | cli | clv | dex | dey | inx | iny | nop | pha | php | pla | plp | rti | rts | sec | sed | sei | tax
  | tay | tsx | txa | txs | tya | aslAcc | lsrAcc | rolAcc | rorAcc => exact ⟨_, shapeOf_of_row rfl, .none _, rfl⟩
  case adcAbs | adcAbsX | adcAbsY | andAbs | andAbsX | andAbsY | aslAbs | aslAbsX | bitAbs | cmpAbs | cmpAbsX | cmpAbsY
  | cpxAbs | cpyAbs | decAbs | decAbsX | eorAbs | eorAbsX | eorAbsY | incAbs | incAbsX | jmpAbs | jmpInd | jsr | ldaAbs
  | ldaAbsX | ldaAbsY | ldxAbs | ldxAbsY | ldyAbs | ldyAbsX | lsrAbs | lsrAbsX | oraAbs | oraAbsX | oraAbsY | rolAbs
  | rolAbsX | rorAbs | rorAbsX | sbcAbs | sbcAbsX | sbcAbsY | staAbs | staAbsX | staAbsY | stxAbs | styAbs =>
    exact ⟨_, shapeOf_of_row rfl, .ofAddr _ _, rfl⟩
  all_goals exact ⟨_, shapeOf_of_row rfl, .byte _ _, rfl⟩

/-- Every instruction of this shape has this opcode byte and its operand bytes after it. -/
def Shape.EncodesWith (op : Byte) : Shape → Prop
  | .none i => encode i = [op]
  | .byte f => ∀ b, encode (f b) = [op, b]
  | .word f => ∀ a, encode (f a) = [op, loByte a, hiByte a]

/-- From the map by opcode byte: what an entry builds is encoded with the entry's byte. -/
theorem opcodeMap_encodesWith : ∀ e ∈ opcodeMap, e.2.EncodesWith e.1 := by
  simp only [opcodeMap, opcodeRow0, opcodeRow1, opcodeRow2, opcodeRow3, opcodeRow4, opcodeRow5, opcodeRow6, opcodeRow7,
    opcodeRow8, opcodeRow9, opcodeRowA, opcodeRowB, opcodeRowC, opcodeRowD, opcodeRowE, opcodeRowF, List.cons_append,
    List.nil_append, List.forall_mem_cons, List.not_mem_nil, false_imp_iff, implies_true, and_true, Shape.EncodesWith]
  and_intros <;> intros <;> rfl

theorem encode_of_shapeOf {op : Byte} {sh : Shape} {bs : List Byte} {i : Instr} (hop : shapeOf op = some sh)
    (h : sh.Builds bs i) : encode i = op :: bs := by
  obtain ⟨e, hfind, rfl⟩ := Option.map_eq_some_iff.1 hop
  obtain rfl : e.1 = op := by simpa using List.find?_some hfind
  have henc := opcodeMap_encodesWith e (List.mem_of_find?_eq_some hfind)
  generalize e.2 = sh at h henc
  cases h with
  | none => exact henc
  | byte f b => exact henc b
  | word f lo hi => simpa using henc (joinBytes lo hi)

/-! ### Decoding and encoding -/

theorem decode_of_builds {op : Byte} {sh : Shape} {bs : List Byte} {i : Instr} (hop : shapeOf op = some sh)
    (h : sh.Builds bs i) (rest : List Byte) : decode (op :: (bs ++ rest)) = .ok (i, rest) := by
  cases h <;> simp [decode, hop]

theorem decode_of_unassigned {op : Byte} (hop : shapeOf op = none) (rest : List Byte) :
    decode (op :: rest) = .error (.unassigned op) := by
  simp [decode, hop]

/-- What decodes is an opcode byte, the operand bytes its shape builds the instruction from, and the bytes left. -/
theorem builds_of_decode {bytes rest : List Byte} {i : Instr} (h : decode bytes = .ok (i, rest)) :
    ∃ op sh bs, shapeOf op = some sh ∧ sh.Builds bs i ∧ bytes = op :: (bs ++ rest) := by
  unfold decode at h
  split at h
  next => cases h
  next op tail =>
    split at h
    case h_2 hop => cases h; exact ⟨op, _, _, hop, .none i, rfl⟩
    case h_3 f b _ hop => cases h; exact ⟨op, _, _, hop, .byte f b, rfl⟩
    case h_5 f lo hi _ hop => cases h; exact ⟨op, _, _, hop, .word f lo hi, rfl⟩
    all_goals cases h

theorem decode_encode_append (i : Instr) (rest : List Byte) : decode (encode i ++ rest) = .ok (i, rest) := by
  obtain ⟨sh, hop, hbuilds, -⟩ := i.shapeOf_opcode
  exact decode_of_builds hop hbuilds rest

theorem eq_encode_append_of_decode {bytes rest : List Byte} {i : Instr} (h : decode bytes = .ok (i, rest)) :
    bytes = encode i ++ rest := by
  obtain ⟨op, sh, bs, hop, hbuilds, rfl⟩ := builds_of_decode h
  rw [encode_of_shapeOf hop hbuilds, List.cons_append]

/-- Settles O1: the map has the instruction's shape at its opcode byte. -/
theorem decodeOfEncode : Obligations.DecodeOfEncode :=
  fun i rest _ => decode_encode_append i rest

/-- Settles O2: what an entry of the map builds is encoded with the entry's byte and the bytes it was built from. -/
theorem decodedBytesAreTheEncoding : Obligations.DecodedBytesAreTheEncoding :=
  fun _ _ _ => eq_encode_append_of_decode

/-- Settles O3: one byte has one shape in the map, and a shape has one mnemonic and one mode. -/
theorem opcodeFixesMnemonicAndMode : Obligations.OpcodeFixesMnemonicAndMode := by
  intro i j hij
  obtain ⟨sh, hi, -, hform⟩ := i.shapeOf_opcode
  obtain ⟨sh', hj, -, hform'⟩ := j.shapeOf_opcode
  obtain rfl : sh = sh' := Option.some.inj (hi.symm.trans (hij ▸ hj))
  exact Prod.mk.inj (hform.symm.trans hform')

/-! ### Assigned and unassigned bytes -/

/-- Every byte is either in the map or one of the 105 (R84, R87). -/
theorem shapeOf_eq_none_iff (op : Byte) : shapeOf op = none ↔ op ∈ unassignedBytes := by
  have hsplit : ∀ op : Byte, ((rowOf op).any fun e => e.1 == op) =
      !(unassignedBytes.any fun b => Nat.beq b.toNat op.toNat) := by decide
  calc
    shapeOf op = none ↔ ((rowOf op).any fun e => e.1 == op) = false := by simp [shapeOf_eq_row]
    _ ↔ (unassignedBytes.any fun b => Nat.beq b.toNat op.toNat) = true := by rw [hsplit, Bool.not_eq_false']
    _ ↔ op ∈ unassignedBytes := by simp only [List.any_eq_true, Nat.beq_eq, ← BitVec.toNat_eq, exists_eq_right]

/-- What is not one of the 105 has a shape. -/
theorem exists_shapeOf_of_assigned {op : Byte} (h : op ∉ unassignedBytes) : ∃ sh, shapeOf op = some sh :=
  Option.ne_none_iff_exists'.1 (mt (shapeOf_eq_none_iff op).1 h)

/-- A byte of the map is the opcode of an instruction. -/
theorem exists_opcode_of_shapeOf {op : Byte} {sh : Shape} (h : shapeOf op = some sh) : ∃ i : Instr, i.opcode = op := by
  obtain ⟨i, hi⟩ := sh.exists_builds (List.replicate sh.operandBytes 0) List.length_replicate
  exact ⟨i, (List.cons.inj (encode_of_shapeOf h hi)).1⟩

/-- Only JMP (indirect) has this operand (R84). -/
theorem Instr.eq_jmpInd {i : Instr} {ptr : Addr} (h : i.operand = .absoluteIndirect ptr) : i = .jmpInd ptr := by
  cases i with
  | jmpInd => cases h; rfl
  | _ => cases h

/-- JSR has one encoding (R84). -/
theorem Instr.opcode_of_jsr {i : Instr} (h : i.mnemonic = .jsr) : i.opcode = 0x20 := by
  cases i with
  | jsr => rfl
  | _ => cases h

namespace Machine

/-! ### The fetched instruction -/

@[simp] theorem State.fetchByte_zero (s : State) : s.fetchByte 0 = s.opcodeByte := by
  simp [State.fetchByte, State.opcodeByte]

/-- The fetch gives the opcode byte and then as many bytes as its shape asks for (R80, R82). -/
theorem State.fetch_of_shapeOf {s : State} {sh : Shape} (h : shapeOf s.opcodeByte = some sh) :
    s.fetch = s.opcodeByte :: (List.range sh.operandBytes).map fun k => s.fetchByte (k + 1) := by
  have hlength : lengthOf s.opcodeByte = sh.operandBytes + 1 := by rw [lengthOf, h, Nat.add_comm]
  simp [State.fetch, hlength, List.range_succ_eq_map, Function.comp_def]

/-- Of an unassigned byte nothing more is fetched. -/
theorem State.fetch_of_unassigned {s : State} (h : shapeOf s.opcodeByte = none) : s.fetch = [s.opcodeByte] := by
  have hlength : lengthOf s.opcodeByte = 1 := by rw [lengthOf, h]
  simp [State.fetch, hlength]

/-- An assigned opcode byte at PC begins an instruction. -/
theorem State.fetched_of_assigned {s : State} (h : s.opcodeByte ∉ unassignedBytes) : ∃ i, s.fetched = some i := by
  obtain ⟨sh, hsh⟩ := exists_shapeOf_of_assigned h
  obtain ⟨i, hi⟩ := sh.exists_builds ((List.range sh.operandBytes).map fun k => s.fetchByte (k + 1)) (by simp)
  have hdecode := decode_of_builds hsh hi []
  rw [List.append_nil, ← State.fetch_of_shapeOf hsh] at hdecode
  exact ⟨i, by rw [State.fetched, hdecode]⟩

/-- The bytes of the fetched instruction are those at PC. -/
theorem State.fetchByte_of_fetched {s : State} {i : Instr} (h : s.fetched = some i) {k : Nat} {b : Byte}
    (hb : (encode i)[k]? = some b) : s.fetchByte k = b := by
  obtain ⟨rest, hdecode⟩ : ∃ rest, decode s.fetch = .ok (i, rest) := by
    unfold State.fetched at h
    split at h
    next rest hdecode => cases h; exact ⟨rest, hdecode⟩
    next => cases h
  have hfetch : s.fetch[k]? = some b := by
    rw [eq_encode_append_of_decode hdecode, List.getElem?_append_left (List.getElem?_eq_some_iff.1 hb).1, hb]
  simp only [State.fetch, List.getElem?_map, Option.map_eq_some_iff, List.getElem?_eq_some_iff, List.getElem_range,
    List.length_range] at hfetch
  obtain ⟨_, ⟨-, rfl⟩, hk⟩ := hfetch
  exact hk

theorem runInstruction_of_unassigned {s : State} (h : s.opcodeByte ∈ unassignedBytes) :
    runInstruction s = .refused (.unassignedOpcode s.opcodeByte) := by
  have hnone := (shapeOf_eq_none_iff _).2 h
  have hfetched : s.fetched = none := by
    rw [State.fetched, State.fetch_of_unassigned hnone, decode_of_unassigned hnone]
  rw [runInstruction, hfetched]

/-- Settles O4: the map has none of the 105 bytes and each of the others, and the step asks the map. -/
theorem unassignedOpcodesAreRefused : Obligations.UnassignedOpcodesAreRefused := by
  refine ⟨rfl, fun op rest h => decode_of_unassigned ((shapeOf_eq_none_iff op).2 h) rest, fun op h => ?_, fun s he h => ?_⟩
  · obtain ⟨sh, hsh⟩ := exists_shapeOf_of_assigned h
    exact exists_opcode_of_shapeOf hsh
  · rw [step, he, act, runInstruction_of_unassigned h, lateEdge]

/-! ### The formats -/

/-- The low byte of an address in numbers (spec/20_memory.md R55). -/
theorem loByte_eq_ofNat (a : Addr) : loByte a = BitVec.ofNat 8 a.toNat := by
  apply BitVec.eq_of_toNat_eq
  rw [loByte_toNat, BitVec.toNat_ofNat]

theorem hiByte_eq_ofNat (a : Addr) : hiByte a = BitVec.ofNat 8 (a.toNat / 256) := by
  apply BitVec.eq_of_toNat_eq
  have := a.isLt
  rw [hiByte_toNat, BitVec.toNat_ofNat]
  omega

/-- Each mode's format is the opcode and the bytes of its operand. -/
theorem operandLayout_eq (op : Byte) (o : Operand) : operandLayout op o = op :: o.bytes := by
  cases o with
  | memory m => cases m <;> simp [operandLayout, Operand.bytes, loByte_eq_ofNat, hiByte_eq_ofNat]
  | _ => simp [operandLayout, Operand.bytes, loByte_eq_ofNat, hiByte_eq_ofNat]

/-- Settles O5: by cases of the addressing mode. -/
theorem formatsOfTheThirteenModes : Obligations.FormatsOfTheThirteenModes := by
  intro i
  refine ⟨(operandLayout_eq _ _).symm, ?_⟩
  rw [Instr.length, encode]
  cases i.operand with
  | memory m => cases m <;> rfl
  | _ => rfl

/-- Settles O6: each word is the encoding of its instruction. -/
theorem sampleWordsDecode : Obligations.SampleWordsDecode := by
  have word (i : Instr) : decode (encode i) = .ok (i, []) := by simpa using decode_encode_append i []
  exact ⟨word (.ldaAbs 0x1234), word (.ldaIndY 0x20), word (.stxZpY 0x02), word (.adcImm 0x50), word .rolAcc,
    word (.bne 0xF7), word (.jmpInd 0x0280), word (.jsr 0x1234), word .brk, word .rti⟩

/-! ### Every step completes -/

section NoDevice
variable {s u : State} {k : Mnemonic} {o : Operand} {r : Result}

theorem State.not_touchesDevice (h : ∀ a, ¬ s.sideEffectAt a) (addrs : List Addr) : s.touchesDevice addrs = false := by
  rw [← Bool.not_eq_true, State.touchesDevice_iff]
  exact fun ⟨a, _, ha⟩ => h a ha

theorem State.not_modeTouches (h : ∀ a, ¬ s.sideEffectAt a) (m : MemMode) : s.modeTouches m = false := by
  rw [State.modeTouches, State.not_touchesDevice h, Bool.and_false]

theorem State.not_sourceTouches (h : ∀ a, ¬ s.sideEffectAt a) (src : Source) : s.sourceTouches src = false := by
  cases src with
  | immediate => rfl
  | memory m => exact State.not_modeTouches h m

/-- What R59 does not refuse completes. -/
theorem unlessDevice_of_eq_false {touched : Bool} (h : touched = false) (t : State) : unlessDevice touched t = .next t := by
  rw [h, unlessDevice_false]

/-- Without a device with side effects an instruction completes, but for the pointer R112 refuses and the JSR R189 refuses. -/
theorem Meaning.completes (h : Meaning s k o r u) (hd : ∀ a, ¬ s.sideEffectAt a)
    (hptr : ∀ ptr, o = .absoluteIndirect ptr → s.refusesPointer ptr = false) (hjsr : k = .jsr → s.jsrOverlaps = false) :
    r = .next u := by
  cases h with
  | lda | ldx | ldy | adc | sbc | and | ora | eor | cmp | cpx | cpy =>
    exact unlessDevice_of_eq_false (State.not_sourceTouches hd _) _
  | bit | sta | stx | sty => exact unlessDevice_of_eq_false (State.not_modeTouches hd _) _
  | jmpInd ptr =>
    rw [jumpIndirect, hptr ptr rfl]
    exact unlessDevice_of_eq_false (State.not_touchesDevice hd _) _
  | jsr =>
    rw [jumpSubroutine, hjsr rfl]
    exact unlessDevice_of_eq_false (State.not_touchesDevice hd _) _
  | asl | lsr | rol | ror | inc | dec | rts | pha | php | pla | plp | brk | rti =>
    exact unlessDevice_of_eq_false (State.not_touchesDevice hd _) _
  | _ => rfl

end NoDevice

@[simp] theorem State.applyEdge_pc (s : State) : s.applyEdge.pc = s.pc := by rw [State.applyEdge_eq]
@[simp] theorem State.applyEdge_sp (s : State) : s.applyEdge.sp = s.sp := by rw [State.applyEdge_eq]
@[simp] theorem State.applyEdge_config (s : State) : s.applyEdge.config = s.config := by rw [State.applyEdge_eq]

/-- Where the devices with side effects are depends on the configuration alone. -/
theorem State.sideEffectAt_congr {s t : State} (hc : t.config = s.config) (a : Addr) :
    t.sideEffectAt a ↔ s.sideEffectAt a := by
  rw [State.sideEffectAt, State.sideEffectAt, State.kindAt_congr hc]

/-- A late S.O. edge stops nothing. -/
theorem lateEdge_completes {r : Result} (h : ∃ t, r = .next t) : ∃ t, lateEdge r = .next t := by
  obtain ⟨t, ht⟩ := h
  exact ⟨t.applyLate, (lateEdge_next_iff r _).2 ⟨t, ht, rfl⟩⟩

/-- Where the pushes of a JSR fall depends on the configuration, PC and S alone. -/
theorem State.underPushes_congr {s t : State} (hc : t.config = s.config) (hpc : t.pc = s.pc) (hsp : t.sp = s.sp) :
    t.underPushes ↔ s.underPushes := by
  simp only [State.underPushes, State.phys_congr hc, hpc, hsp]

/-- An assigned opcode byte runs, but for the two refusals of `Meaning.completes`: there the bytes at PC are those of the
fetched instruction. -/
theorem runInstruction_completes {s : State} (hd : ∀ a, ¬ s.sideEffectAt a) (hop : s.opcodeByte ∉ unassignedBytes)
    (hptr : s.opcodeByte = 0x6C → s.config.jmpIndWrap = .refuse → s.fetchByte 1 ≠ 0xFF)
    (hjsr : s.opcodeByte = 0x20 → ¬ s.underPushes) : ∃ t, runInstruction s = .next t := by
  obtain ⟨i, hi⟩ := State.fetched_of_assigned hop
  obtain ⟨u, hu⟩ := exec_meaning (s.begin i) i
  have hopcode : s.opcodeByte = i.opcode := by
    rw [← State.fetchByte_zero]
    exact State.fetchByte_of_fetched hi rfl
  have hnext : exec i (s.begin i) = .next u := by
    refine hu.completes hd (fun ptr ho => ?_) (fun hk => ?_)
    · obtain rfl := Instr.eq_jmpInd ho
      apply State.refusesPointer_eq_false
      intro hend hrefuse
      have hlow : s.fetchByte 1 = loByte ptr := State.fetchByte_of_fetched hi rfl
      exact hptr hopcode hrefuse (hlow.trans ((loByte_eq_iff ptr).2 hend))
    · rw [← Bool.not_eq_true, State.jsrOverlaps_iff, State.underPushes_congr rfl rfl rfl]
      exact hjsr (hopcode.trans (Instr.opcode_of_jsr hk))
  exact ⟨u, (runInstruction_next_iff s u).2 ⟨i, hi, hnext⟩⟩

/-- Settles O20: the interrupts' pushes and the instruction complete, and the other events always do. -/
theorem everyStepCompletes : Obligations.EveryStepCompletes := by
  intro s hd hop hptr hjsr
  have hd' {t : State} (hc : t.config = s.config) (a : Addr) : ¬ t.sideEffectAt a :=
    fun ha => hd a ((State.sideEffectAt_congr hc a).1 ha)
  rw [step]
  cases s.sample.event with
  | held | reset | halted => exact ⟨_, rfl⟩
  | nmi | irq => exact lateEdge_completes ⟨_, unlessDevice_of_eq_false (State.not_touchesDevice (hd' (by simp)) _) _⟩
  | instruction =>
    have hunder : s.sample.applyEdge.underPushes ↔ s.underPushes := State.underPushes_congr (by simp) (by simp) (by simp)
    exact lateEdge_completes (runInstruction_completes (hd' (by simp)) hop (by simpa using hptr) (by rwa [hunder]))

end Machine
end Sys2Proof

end

/-! The statements of spec/40_addressing_modes.md. An index addition carries into the next page exactly where the low byte
overflows (`hiByte_add_zext16_ne_iff`); the cycles of an opcode byte are read off R271's table by
`baseCycles_mem_cycleTable`. -/

section

namespace Sys2Proof.Machine

/-! ### Effective addresses in numbers -/

/-- An index of page zero wraps in page zero (spec/40_addressing_modes.md R105, R106). -/
theorem zext16_add_toNat (a b : Byte) : (zext16 (a + b)).toNat = (a.toNat + b.toNat) % 256 := by
  rw [zext16_toNat, BitVec.toNat_add]

/-- An index of a full address wraps at 65536 (spec/40_addressing_modes.md R108, R109, D12). -/
theorem add_zext16_toNat (a : Addr) (b : Byte) : (a + zext16 b).toNat = (a.toNat + b.toNat) % 65536 := by
  rw [BitVec.toNat_add, zext16_toNat]

/-- A page-zero pointer in numbers: its second byte is read from page zero too (spec/40_addressing_modes.md R110, R111,
D27). -/
theorem State.pointer_toNat (s : State) (p : Byte) :
    (s.pointer p).toNat = (s.read .pointerLow (BitVec.ofNat 16 p.toNat)).toNat +
      256 * (s.read .pointerHigh (BitVec.ofNat 16 ((p.toNat + 1) % 256))).toNat := by
  rw [State.pointer, joinBytes_toNat, zext16_eq_ofNat, zext16_eq_ofNat, BitVec.toNat_add]
  rfl

/-- Settles O29: sums of page zero, of full addresses, and of the bytes of a pointer. -/
theorem effectiveAddresses : Obligations.EffectiveAddresses := by
  intro s zp addr lo hi
  refine ⟨zext16_toNat zp, zext16_add_toNat zp s.x, zext16_add_toNat zp s.y, rfl, add_zext16_toNat addr s.x,
    add_zext16_toNat addr s.y, ?_, ?_⟩
  · rw [State.ea, State.pointer_toNat, BitVec.toNat_add, Nat.mod_add_mod]
  · rw [State.ea, add_zext16_toNat, State.pointer_toNat]
    simp only [lo, hi, Nat.mod_eq_of_lt zp.isLt]

/-! ### The operand -/

/-- A read of rom gives the stored byte, with or without a DMA agent (spec/20_memory.md R52). -/
theorem State.read_rom {s : State} {a : Addr} (hk : s.kindAt a = .rom) (u : ByteUse) : s.read u a = s.peek a := by
  simp [State.read, hk]

/-- With an agent the last byte its list gives for a use comes before the read (spec/20_memory.md R69). -/
theorem State.dmaByte_of_agent {s : State} (hd : s.config.dmaAgent = true) (u : ByteUse) :
    s.dmaByte u = lastOf s.dmaReads u := if_pos hd

/-- Settles O30: the operand of a memory mode is one read at the effective address. -/
theorem operandByte : Obligations.OperandByte := by
  intro s imm m
  refine ⟨rfl, rfl, ?_, fun hram hagent => ?_⟩
  · rintro (⟨hram, hnone⟩ | hrom)
    · exact State.read_ram hram hnone .operand
    · exact State.read_rom hrom .operand
  · rw [State.sourceByte, State.read_of_ram hram, State.dmaByte_of_agent hagent]
    rfl

/-! ### JMP (indirect) under `either` -/

/-- Settles O49: the free bit chooses one of two addresses, and neither read is refused. -/
theorem jumpIndirectEither : Obligations.JumpIndirectEither := by
  intro s a heither hend hlow hnext hback
  have hhigh := State.indirectHighAddr_either hend heither
  have hplain : ¬ s.sideEffectAt (s.indirectHighAddr a) := by
    obtain h | h := hhigh <;> rwa [h]
  exact ⟨s.indirectHighAddr a, hhigh, execJmpInd_goes (fun _ => by simp [heither]) hlow hplain⟩

/-! ### Page crossing -/

/-- The high byte changes exactly where the addition to the low byte carries, at the top of memory as elsewhere. -/
theorem hiByte_add_zext16_ne_iff (a : Addr) (b : Byte) :
    hiByte (a + zext16 b) ≠ hiByte a ↔ 256 ≤ (loByte a).toNat + b.toNat := by
  rw [Ne, BitVec.toNat_eq, hiByte_toNat, hiByte_toNat, add_zext16_toNat, loByte_toNat]
  have := a.isLt
  have := b.isLt
  omega

/-- The base of (indirect),Y lies in the page that the pointer's second byte names. -/
theorem State.hiByte_pointer (s : State) (p : Byte) :
    hiByte (s.pointer p) = s.read .pointerHigh (BitVec.ofNat 16 ((p.toNat + 1) % 256)) := by
  rw [State.pointer, hiByte_joinBytes, zext16_eq_ofNat, BitVec.toNat_add]
  rfl

theorem State.crossesPage_absoluteX_iff (s : State) (addr : Addr) :
    s.crossesPage (.absoluteX addr) = true ↔ hiByte (s.ea (.absoluteX addr)) ≠ hiByte addr := by
  rw [State.crossesPage, decide_eq_true_iff, State.ea, hiByte_add_zext16_ne_iff]

theorem State.crossesPage_absoluteY_iff (s : State) (addr : Addr) :
    s.crossesPage (.absoluteY addr) = true ↔ hiByte (s.ea (.absoluteY addr)) ≠ hiByte addr := by
  rw [State.crossesPage, decide_eq_true_iff, State.ea, hiByte_add_zext16_ne_iff]

theorem State.crossesPage_indirectIndexedY_iff (s : State) (zp : Byte) :
    s.crossesPage (.indirectIndexedY zp) = true ↔ hiByte (s.ea (.indirectIndexedY zp)) ≠
      s.read .pointerHigh (BitVec.ofNat 16 ((zp.toNat + 1) % 256)) := by
  rw [State.crossesPage, decide_eq_true_iff, State.ea, ← State.hiByte_pointer, hiByte_add_zext16_ne_iff, State.pointer,
    loByte_joinBytes]

/-- An address that is the instruction's own operand crosses no page. -/
theorem State.crossesPage_of_isDirect (s : State) {m : MemMode} (h : m.isDirect = true) : s.crossesPage m = false := by
  cases m with
  | zeroPage | absolute => rfl
  | _ => cases h

/-! ### The cycle table -/

/-- Every instruction of this shape takes `n` cycles before the notes. -/
def ShapeTakes (n : Nat) : Shape → Prop
  | .none i => baseCycles i = n
  | .byte f => ∀ b, baseCycles (f b) = n
  | .word f => ∀ a, baseCycles (f a) = n

theorem ShapeTakes.of_builds {n : Nat} {sh : Shape} {bs : List Byte} {i : Instr} (hn : ShapeTakes n sh)
    (h : sh.Builds bs i) : baseCycles i = n := by
  cases h with
  | none => exact hn
  | byte f b => exact hn b
  | word f lo hi => exact hn (joinBytes lo hi)

/-- R84's map by opcode byte and R271's table go through the same bytes in the same order. -/
theorem opcodeMap_takes : List.Forall₂ (fun e c => e.1 = c.1 ∧ ShapeTakes c.2 e.2) opcodeMap cycleTable := by
  simp only [opcodeMap, opcodeRow0, opcodeRow1, opcodeRow2, opcodeRow3, opcodeRow4, opcodeRow5, opcodeRow6, opcodeRow7,
    opcodeRow8, opcodeRow9, opcodeRowA, opcodeRowB, opcodeRowC, opcodeRowD, opcodeRowE, opcodeRowF, cycleTable,
    List.cons_append, List.nil_append, List.forall₂_cons, List.forall₂_nil_left_iff, and_true, true_and, ShapeTakes]
  and_intros <;> intros <;> rfl

/-- Each instruction's cycles before the notes are those of its opcode byte (spec/70_reset_and_hazards.md R271). -/
theorem baseCycles_mem_cycleTable (i : Instr) : (i.opcode, baseCycles i) ∈ cycleTable := by
  obtain ⟨sh, hsh, hbuilds, -⟩ := i.shapeOf_opcode
  obtain ⟨e, hfind, rfl⟩ := Option.map_eq_some_iff.1 hsh
  have hop : e.1 = i.opcode := by simpa using List.find?_some hfind
  obtain ⟨n, hn, rfl⟩ := List.getElem_of_mem (List.mem_of_find?_eq_some hfind)
  have hn' : n < cycleTable.length := opcodeMap_takes.length_eq ▸ hn
  obtain ⟨hsame, htakes⟩ := opcodeMap_takes.get hn hn'
  rw [← hop, htakes.of_builds hbuilds]
  exact List.mem_of_getElem (Prod.ext hsame.symm rfl)

theorem baseCycles_bounds (i : Instr) : 2 ≤ baseCycles i ∧ baseCycles i ≤ 7 := by
  have hall : (cycleTable.all fun c => Nat.ble 2 c.2 && Nat.ble c.2 7) = true := by decide
  simpa using List.all_eq_true.1 hall _ (baseCycles_mem_cycleTable i)

/-! ### Notes (1) and (2) -/

/-- A branch, and nothing else, has a relative operand (spec/30_encoding.md R84). -/
theorem cycleClass_of_relative {i : Instr} {rel : Byte} (h : i.operand = .relative rel) :
    cycleClass i.mnemonic = .branch := by
  cases i with
  | bcc | bcs | beq | bmi | bne | bpl | bvc | bvs => rfl
  | _ => cases h

theorem cycleClass_of_mem_indexReaders {k : Mnemonic} (h : k ∈ indexReaders) : cycleClass k = .reads := by
  have hall : ∀ k ∈ indexReaders, cycleClass k = .reads := by decide
  exact hall k h

/-- The reading instructions that note (1) does not count for (spec/70_reset_and_hazards.md R277). -/
theorem mem_of_reads_of_not_mem_indexReaders {k : Mnemonic} (hc : cycleClass k = .reads) (hk : k ∉ indexReaders) :
    k ∈ [.bit, .cpx, .cpy] := by
  cases k with
  | bit | cpx | cpy => decide
  | adc | and | cmp | eor | lda | ldx | ldy | ora | sbc => exact absurd (by decide) hk
  | _ => cases hc

/-- BIT, CPX and CPY have no indexed mode (spec/30_encoding.md R84). -/
theorem isDirect_of_bit_cpx_cpy {i : Instr} {m : MemMode} (hk : i.mnemonic ∈ [.bit, .cpx, .cpy])
    (ho : i.operand = .memory m) : m.isDirect = true := by
  cases i with
  | bitAbs | bitZp | cpxAbs | cpxZp | cpyAbs | cpyZp => cases ho; rfl
  | cpxImm | cpyImm => cases ho
  | _ => simp [Instr.mnemonic] at hk

/-- The flag each branch tests, as R181 to R188 list them. -/
theorem takesBranch_iff (p : Status) (k : Mnemonic) :
    takesBranch p k = true ↔ (k, true) ∈ [(.bcc, !p.c), (.bcs, p.c), (.beq, p.z), (.bmi, p.n), (.bne, !p.z),
      (.bpl, !p.n), (.bvc, !p.v), (.bvs, p.v)] := by
  cases k <;> simp [takesBranch]

/-- PC after a branch that is not taken, in numbers (spec/44_branch_jump.md R180). -/
theorem State.branched_false_pc (s : State) (rel : Byte) : (s.branched rel false).pc = s.afterBranch := by
  simp [State.branched, State.afterBranch, BitVec.ofInt_add]

/-- PC after a branch that is taken, in numbers (spec/44_branch_jump.md R180). -/
theorem State.branched_true_pc (s : State) (rel : Byte) : (s.branched rel true).pc = s.branchTarget rel := by
  simp [State.branched, State.branchTarget, State.afterBranch, sext16, BitVec.signExtend, BitVec.ofInt_add]

theorem hiByte_eq_iff (a b : Addr) : hiByte a = hiByte b ↔ a.toNat / 256 = b.toNat / 256 := by
  rw [BitVec.toNat_eq, hiByte_toNat, hiByte_toNat]

section Notes
variable {s : State} {i : Instr}

/-- Note (1) (R277). -/
theorem State.extraCycles_of_indexReader {m : MemMode} (ho : i.operand = .memory m) (hk : i.mnemonic ∈ indexReaders) :
    s.extraCycles i = if s.crossesPage m = true then 1 else 0 := by
  simp only [State.extraCycles, cycleClass_of_mem_indexReaders hk, ho]

/-- Note (2) (R277). -/
theorem State.extraCycles_of_relative {rel : Byte} (ho : i.operand = .relative rel) :
    s.extraCycles i = if takesBranch s.p i.mnemonic = true then
      if hiByte (s.branchTarget rel) = hiByte s.afterBranch then 1 else 2 else 0 := by
  simp only [State.extraCycles, cycleClass_of_relative ho, ho]

/-- No note counts for an instruction on memory that is none of note (1)'s: what else reads memory crosses no page. -/
theorem State.extraCycles_of_memory {m : MemMode} (ho : i.operand = .memory m) (hk : i.mnemonic ∉ indexReaders) :
    s.extraCycles i = 0 := by
  cases hc : cycleClass i.mnemonic with
  | reads =>
    have hdirect := isDirect_of_bit_cpx_cpy (mem_of_reads_of_not_mem_indexReaders hc hk) ho
    simp [State.extraCycles, hc, ho, s.crossesPage_of_isDirect hdirect]
  | _ => simp [State.extraCycles, hc, ho]

/-- No note counts for an instruction that neither names a byte of memory nor branches. -/
theorem State.extraCycles_of_other (hm : ∀ m, i.operand ≠ .memory m) (hrel : ∀ rel, i.operand ≠ .relative rel) :
    s.extraCycles i = 0 := by
  cases ho : i.operand with
  | memory m => exact absurd ho (hm m)
  | relative rel => exact absurd ho (hrel rel)
  | _ => simp [State.extraCycles, ho]

/-- What the notes do not name takes the cycles of the table. -/
theorem State.extraCycles_of_no_note (hrel : ∀ rel, i.operand ≠ .relative rel)
    (hk : i.mnemonic ∉ indexReaders ∨ ∀ m, i.operand ≠ .memory m) : s.extraCycles i = 0 := by
  by_cases hm : ∃ m, i.operand = .memory m
  · obtain ⟨m, ho⟩ := hm
    exact State.extraCycles_of_memory ho (hk.resolve_right fun h => h m ho)
  · exact State.extraCycles_of_other (fun m ho => hm ⟨m, ho⟩) hrel

theorem baseCycles_of_relative {rel : Byte} (ho : i.operand = .relative rel) : baseCycles i = 2 := by
  simp only [baseCycles, cycleClass_of_relative ho]

theorem baseCycles_of_indexReader {m : MemMode} (ho : i.operand = .memory m) (hk : i.mnemonic ∈ indexReaders) :
    baseCycles i = readCycles m := by
  simp only [baseCycles, cycleClass_of_mem_indexReaders hk, ho]

theorem readCycles_le (m : MemMode) : readCycles m ≤ 6 := by
  cases m <;> simp [readCycles]

/-- The cycles of a branch, with its pages in numbers (R277). -/
theorem State.cycles_of_relative {rel : Byte} (ho : i.operand = .relative rel) :
    s.cycles i = 2 + if takesBranch s.p i.mnemonic = true then
      if (s.branched rel true).pc.toNat / 256 = (s.branched rel false).pc.toNat / 256 then 1 else 2 else 0 := by
  rw [State.cycles, baseCycles_of_relative ho, State.extraCycles_of_relative ho, State.branched_true_pc,
    State.branched_false_pc]
  simp only [hiByte_eq_iff]

/-- No instruction takes more than seven cycles: what note (1) counts for takes six before it, a branch two. -/
theorem State.cycles_le_seven (s : State) (i : Instr) : s.cycles i ≤ 7 := by
  by_cases hrel : ∃ rel, i.operand = .relative rel
  · obtain ⟨rel, ho⟩ := hrel
    rw [State.cycles_of_relative ho]
    split_ifs <;> omega
  by_cases hread : i.mnemonic ∈ indexReaders ∧ ∃ m, i.operand = .memory m
  · obtain ⟨hk, m, ho⟩ := hread
    have := readCycles_le m
    rw [State.cycles, baseCycles_of_indexReader ho hk, State.extraCycles_of_indexReader ho hk]
    split_ifs <;> omega
  · rw [State.cycles, State.extraCycles_of_no_note (not_exists.1 hrel) ((not_and_or.1 hread).imp_right not_exists.1)]
    exact (baseCycles_bounds i).2

end Notes

/-- Settles O31: the carry of each index addition, the table by opcode byte, and the notes by the kind of operand. -/
theorem pageCrossingAndCycles : Obligations.PageCrossingAndCycles := by
  intro s i addr zp
  refine ⟨⟨s.crossesPage_absoluteX_iff addr, s.crossesPage_absoluteY_iff addr, s.crossesPage_indirectIndexedY_iff zp,
    by simp [State.crossesPage]⟩, baseCycles_mem_cycleTable i, fun m ho hk => ?_, fun rel ho => ?_, fun hrel hk => ?_,
    Nat.le_add_right_of_le (baseCycles_bounds i).1, s.cycles_le_seven i⟩
  · rw [State.cycles, State.extraCycles_of_indexReader ho hk]
  · rw [State.cycles_of_relative ho]
    simp only [takesBranch_iff]
  · rw [State.cycles, State.extraCycles_of_no_note hrel hk, Nat.add_zero]

end Sys2Proof.Machine

end

/-! The statements of spec/41_load_store_transfer.md. The encodings of a mnemonic are read off the map by opcode byte
(`hasEncodings_of_perm`). `Meaning` says which operation a mnemonic and an operand select; one lemma for each kind of operation
says in numbers what it answers: `State.reading_setNZ`, `State.storing_completes`, `State.setNZ_advance`. -/

section

namespace Sys2Proof.Machine

/-! ### The encodings of a mnemonic -/

/-- The modes and opcode bytes of a mnemonic in R84's map by opcode byte. -/
def formsInMap (k : Mnemonic) : List (Mode × Byte) :=
  (opcodeMap.filter fun e => e.2.form.1 == k).map fun e => (e.2.form.2, e.1)

/-- An instruction's opcode byte stands in the map with the instruction's mnemonic and mode. -/
theorem mem_formsInMap (i : Instr) : (i.operand.mode, i.opcode) ∈ formsInMap i.mnemonic := by
  obtain ⟨sh, hop, -, hform⟩ := i.shapeOf_opcode
  obtain ⟨e, hfind, rfl⟩ := Option.map_eq_some_iff.1 hop
  have hbyte : e.1 = i.opcode := by simpa using List.find?_some hfind
  refine List.mem_map.2 ⟨e, List.mem_filter.2 ⟨List.mem_of_find?_eq_some hfind, ?_⟩, ?_⟩ <;> simp [hform, hbyte]

/-- What an entry of the map builds from operand bytes 0 has the entry's opcode byte, mnemonic and mode. -/
theorem exists_instr_of_mem_opcodeMap {op : Byte} {sh : Shape} (h : (op, sh) ∈ opcodeMap) :
    ∃ i : Instr, i.opcode = op ∧ i.mnemonic = sh.form.1 ∧ i.operand.mode = sh.form.2 := by
  have henc := opcodeMap_encodesWith _ h
  cases sh with
  | none i => exact ⟨i, (List.cons.inj henc).1, rfl, rfl⟩
  | byte f => exact ⟨f 0, (List.cons.inj (henc 0)).1, rfl, rfl⟩
  | word f => exact ⟨f 0, (List.cons.inj (henc 0)).1, rfl, rfl⟩

/-- The encodings of a mnemonic are its entries in the map (spec/30_encoding.md R84). -/
theorem hasEncodings_of_perm {k : Mnemonic} {forms : List (Mode × Byte)} (h : (formsInMap k).Perm forms) :
    HasEncodings k forms := by
  refine ⟨fun i hi => h.mem_iff.1 (hi ▸ mem_formsInMap i), fun f hf => ?_⟩
  obtain ⟨⟨op, sh⟩, he, rfl⟩ := List.mem_map.1 (h.mem_iff.2 hf)
  obtain ⟨hmem, hk⟩ := List.mem_filter.1 he
  obtain ⟨i, hop, hki, hmode⟩ := exists_instr_of_mem_opcodeMap hmem
  exact ⟨i, hki.trans (beq_iff_eq.1 hk), Prod.ext hmode hop⟩

/-! ### The next instruction -/

/-- An operand in memory has the bytes its mode's length counts (spec/30_encoding.md R81). -/
theorem Instr.length_of_memory {i : Instr} {m : MemMode} (h : i.operand = .memory m) : i.length = m.length := by
  rw [Instr.length, encode, h]
  cases m <;> rfl

/-- The operand of a reading instruction has the bytes its source's length counts (spec/30_encoding.md R81). -/
theorem Instr.length_of_source {i : Instr} {src : Source} (h : i.operand = src.operand) : i.length = src.length := by
  cases src with
  | immediate =>
    rw [Instr.length, encode, h]
    rfl
  | memory => exact Instr.length_of_memory h

/-- `PC <- (PC + #) mod 65536`, in numbers (spec/10_state.md R32). -/
theorem State.advance_length (s : State) (i : Instr) : s.advance i.length = s.after i := by
  rw [State.advance, State.after, BitVec.ofNat_add, BitVec.ofNat_toNat, BitVec.setWidth_eq]
  rfl

/-- `SetNZ` of a result and the step to the next instruction, in numbers. -/
theorem State.setNZ_advance (s : State) (v : Byte) (i : Instr) :
    (s.setNZ v).advance i.length = { s.after i with p := s.p.fromResult v } := by
  rw [State.advance_length, ← Status.setNZ_eq_fromResult]
  rfl

/-! ### Loads -/

theorem Source.operand_injective : Function.Injective Source.operand := by
  rintro (b | m) (b' | m') h <;> cases h <;> rfl

section Meaning
variable {s u : State} {k : Mnemonic} {o : Operand} {r : Result}

/-- What the mnemonic of a load selects. -/
theorem Meaning.load {src : Source} (h : Meaning s k o r u) (ho : o = src.operand) :
    (k = .lda → r = loadA src s) ∧ (k = .ldx → r = loadX src s) ∧ (k = .ldy → r = loadY src s) := by
  cases h with
  | lda | ldx | ldy =>
    obtain rfl := Source.operand_injective ho
    simp
  | _ => simp

/-- What the mnemonic of a store selects. -/
theorem Meaning.store {m : MemMode} (h : Meaning s k o r u) (ho : o = .memory m) :
    (k = .sta → r = s.storing m s.a) ∧ (k = .stx → r = s.storing m s.x) ∧ (k = .sty → r = s.storing m s.y) := by
  cases h with
  | sta | stx | sty =>
    cases ho
    simp
  | _ => simp

end Meaning

/-- A reading instruction touches a device with side effects exactly where R59 refuses it. -/
theorem State.sourceTouches_iff (s : State) (src : Source) : s.sourceTouches src = true ↔ s.refusedSource src := by
  cases src with
  | immediate => exact iff_of_false Bool.false_ne_true id
  | memory m => exact s.modeTouches_iff m

/-- A reading instruction that sets N and Z from the byte it reads, where R59 does not refuse it. -/
theorem State.reading_setNZ {s : State} {i : Instr} {src : Source} (ho : i.operand = src.operand)
    (hs : ¬ s.refusedSource src) (f : Byte → State) :
    s.reading src (fun m => (f m).setNZ m) =
      .next { (f (s.sourceByte src)).after i with p := (f (s.sourceByte src)).p.fromResult (s.sourceByte src) } := by
  have htouch : s.sourceTouches src = false := by rwa [← Bool.not_eq_true, State.sourceTouches_iff]
  rw [State.reading, htouch, unlessDevice_false, ← Instr.length_of_source ho, State.setNZ_advance]

/-- Settles O32: each load reads its operand, sets its register and then N and Z (`State.reading_setNZ`). -/
theorem loads : Obligations.Loads := by
  refine ⟨hasEncodings_of_perm (by decide), hasEncodings_of_perm (by decide), hasEncodings_of_perm (by decide),
    fun i src s ho hs => ?_⟩
  obtain ⟨u, hu⟩ := exec_meaning s i
  obtain ⟨hlda, hldx, hldy⟩ := hu.load ho
  exact ⟨fun hk => (hlda hk).trans (State.reading_setNZ ho hs s.setA),
    fun hk => (hldx hk).trans (State.reading_setNZ ho hs s.setX),
    fun hk => (hldy hk).trans (State.reading_setNZ ho hs s.setY)⟩

/-! ### Stores -/

/-- A store leaves what `StoresAt` says (spec/20_memory.md R53). -/
theorem StoresAt.write {s : State} (hw : s.mem.wf = true) (a : Addr) (v : Byte) : StoresAt s (s.write a v) a v := by
  refine ⟨fun hram => ?_, fun b hb => ?_⟩
  · rw [State.peek_write hw, if_pos ⟨hram, rfl⟩]
  · rw [State.peek_write hw, if_neg]
    rintro ⟨hram, hsame⟩
    exact hb.elim (· hram) (· hsame.symm)

/-- What a store leaves depends on memory and configuration alone. -/
theorem StoresAt.congr {s t u : State} {a : Addr} {v : Byte} (h : StoresAt s t a v) (hm : u.mem = t.mem)
    (hc : u.config = t.config) : StoresAt s u a v := by
  have hpeek (b : Addr) : u.peek b = t.peek b := by rw [State.peek, State.peek, hm, State.phys_congr hc]
  obtain ⟨hstored, hother⟩ := h
  exact ⟨fun hram => (hpeek a).trans (hstored hram), fun b hb => (hpeek b).trans (hother b hb)⟩

/-- A storing instruction where R59 does not refuse it: the byte, the next instruction, and nothing else. -/
theorem State.storing_completes {s : State} {i : Instr} {m : MemMode} (hw : s.mem.wf = true)
    (ho : i.operand = .memory m) (hm : ¬ s.refusedOperand m) (v : Byte) :
    ∃ t, s.storing m v = .next t ∧ StoresAt s t (s.ea m) v ∧ { t with mem := s.mem } = s.after i := by
  have htouch : s.modeTouches m = false := by rwa [← Bool.not_eq_true, State.modeTouches_iff]
  refine ⟨(s.write (s.ea m) v).after i, ?_, (StoresAt.write hw _ v).congr rfl rfl, ?_⟩
  · rw [State.storing_next_iff, ← Instr.length_of_memory ho, State.advance_length]
    exact ⟨htouch, rfl⟩
  · rw [State.write_eq]
    rfl

/-- Settles O33: each store is `State.storing` of its register. -/
theorem stores : Obligations.Stores := by
  refine ⟨hasEncodings_of_perm (by decide), hasEncodings_of_perm (by decide), hasEncodings_of_perm (by decide),
    fun i m s hw ho hm => ?_⟩
  obtain ⟨u, hu⟩ := exec_meaning s i
  obtain ⟨hsta, hstx, hsty⟩ := hu.store ho
  have hstores := State.storing_completes hw ho hm
  exact ⟨fun hk => hsta hk ▸ hstores s.a, fun hk => hstx hk ▸ hstores s.x, fun hk => hsty hk ▸ hstores s.y⟩

/-! ### Transfers -/

/-- Settles O34: each transfer sets its register, then N and Z but for TXS, and goes to the next instruction. -/
theorem transfers : Obligations.Transfers := by
  refine ⟨hasEncodings_of_perm (by decide), hasEncodings_of_perm (by decide), hasEncodings_of_perm (by decide),
    hasEncodings_of_perm (by decide), hasEncodings_of_perm (by decide), hasEncodings_of_perm (by decide), fun s => ?_⟩
  exact ⟨congrArg Host.Outcome.next ((s.setX s.a).setNZ_advance s.a .tax),
    congrArg Host.Outcome.next ((s.setY s.a).setNZ_advance s.a .tay),
    congrArg Host.Outcome.next ((s.setX s.sp).setNZ_advance s.sp .tsx),
    congrArg Host.Outcome.next ((s.setA s.x).setNZ_advance s.x .txa),
    congrArg Host.Outcome.next ((s.setSp s.x).advance_length .txs),
    congrArg Host.Outcome.next ((s.setA s.y).setNZ_advance s.y .tya)⟩

end Sys2Proof.Machine

end

/-! The statements of spec/42_arithmetic_logic.md. A mnemonic and an operand select one answer (`exec_eq_of_meaning`), and a
reading instruction goes on to the next one (`State.reading_completes`); what is left is to say each result and each flag in
numbers: `Status.compare_eq`, `Status.setAlu_addBinary`, `Status.setAlu_subBinary`, `nmosSum_of_valid`. -/

section

namespace Sys2Proof.Machine

/-! ### What a mnemonic and an operand select -/

section Meaning
variable {s u u' : State} {k : Mnemonic} {o : Operand} {r r' : Result} {i : Instr}

/-- A mnemonic and an operand select one answer. -/
theorem Meaning.result_unique (h : Meaning s k o r u) (h' : Meaning s k o r' u') : r = r' := by
  cases h with
  | lda src | ldx src | ldy src | adc src | sbc src | and src | ora src | eor src | cmp src | cpx src | cpy src =>
    generalize ho : src.operand = o at h'
    cases h'
    obtain rfl := Source.operand_injective ho
    rfl
  | _ =>
    cases h'
    rfl

/-- An instruction answers what its mnemonic and its operand select. -/
theorem exec_eq_of_meaning (hk : i.mnemonic = k) (ho : i.operand = o) (h : Meaning s k o r u) : exec i s = r := by
  obtain ⟨v, hv⟩ := exec_meaning s i
  rw [hk, ho] at hv
  exact hv.result_unique h

end Meaning

/-- A reading instruction where R59 does not refuse it goes on to the next instruction. -/
theorem State.reading_completes {s : State} {i : Instr} {src : Source} (ho : i.operand = src.operand)
    (hs : ¬ s.refusedSource src) (f : Byte → State) : s.reading src f = .next ((f (s.sourceByte src)).after i) := by
  have htouch : s.sourceTouches src = false := by rwa [← Bool.not_eq_true, State.sourceTouches_iff]
  rw [State.reading, htouch, unlessDevice_false, ← Instr.length_of_source ho, State.advance_length]

/-! ### D and the other instructions -/

/-- `s` with another D. -/
def State.withDecimal (b : Bool) (s : State) : State := { s with p := { s.p with d := b } }

/-- The same answer, with the next state changed by `f`. -/
def mapNext (f : State → State) : Result → Result
  | .next s => .next (f s)
  | .fault r => .fault r
  | .refused r => .refused r

theorem mapNext_unlessDevice (f : State → State) (touched : Bool) (t : State) :
    mapNext f (unlessDevice touched t) = unlessDevice touched (f t) := by
  cases touched <;> rfl

/-- A store does not ask for D. -/
theorem State.write_withDecimal (s : State) (b : Bool) (a : Addr) (v : Byte) :
    (s.withDecimal b).write a v = (s.write a v).withDecimal b := by
  rw [State.write_eq, State.write_eq]
  rfl

/-- A push does not ask for D. -/
theorem State.push_withDecimal (s : State) (b : Bool) (v : Byte) :
    (s.withDecimal b).push v = (s.push v).withDecimal b := by
  rw [State.push, State.write_withDecimal]
  rfl

/-- Pushing an address does not ask for D. -/
theorem State.pushAddr_withDecimal (s : State) (b : Bool) (a : Addr) :
    (s.withDecimal b).pushAddr a = (s.pushAddr a).withDecimal b := by
  rw [State.pushAddr, State.push_withDecimal, State.push_withDecimal]
  rfl

/-- Storing a register does not ask for D. -/
theorem mapNext_storing (s : State) (b : Bool) (m : MemMode) (v : Byte) :
    mapNext (State.withDecimal b) (s.storing m v) = (s.withDecimal b).storing m v := by
  rw [State.storing, State.storing, mapNext_unlessDevice, State.write_withDecimal]
  rfl

/-- A read-modify-write does not ask for D where its operation does not. -/
theorem mapNext_modifying (s : State) (b : Bool) (m : MemMode) {f : Byte → Status → Shifted}
    (hf : ∀ v p, f v { p with d := b } = ⟨(f v p).r, { (f v p).p with d := b }⟩) :
    mapNext (State.withDecimal b) (s.modifying m f) = (s.withDecimal b).modifying m f := by
  have hop : f ((s.withDecimal b).read .operand ((s.withDecimal b).ea m)) (s.withDecimal b).p =
      ⟨(f (s.read .operand (s.ea m)) s.p).r, { (f (s.read .operand (s.ea m)) s.p).p with d := b }⟩ := hf _ _
  rw [State.modifying, State.modifying, mapNext_unlessDevice, hop, State.write_withDecimal]
  rfl

/-- Pushing a byte does not ask for D. -/
theorem mapNext_pushByte (s : State) (b : Bool) (v : Byte) :
    mapNext (State.withDecimal b) (pushByte v s) = pushByte v (s.withDecimal b) := by
  rw [pushByte, pushByte, mapNext_unlessDevice, State.push_withDecimal]
  rfl

/-- The answer of an instruction with a refusal of its own before that of R59. -/
theorem mapNext_guarded (f : State → State) (refuse touched : Bool) (why : Refusal) (t : State) :
    mapNext f (if refuse then .refused why else unlessDevice touched t) =
      if refuse then .refused why else unlessDevice touched (f t) := by
  rw [← mapNext_unlessDevice]
  cases refuse <;> rfl

/-- JSR does not ask for D. -/
theorem mapNext_jumpSubroutine (s : State) (b : Bool) (addr : Addr) :
    mapNext (State.withDecimal b) (jumpSubroutine addr s) = jumpSubroutine addr (s.withDecimal b) := by
  rw [jumpSubroutine, jumpSubroutine, mapNext_guarded, State.pushAddr_withDecimal]
  rfl

section Meaning
variable {s u : State} {k : Mnemonic} {o : Operand} {r : Result}

/-- Another D changes nothing in the answer of an instruction but D, for all but ADC, SBC and what pushes the image of P. -/
theorem Meaning.withDecimal (h : Meaning s k o r u) (hk : k ∉ [.adc, .sbc, .php, .brk]) (b : Bool) :
    ∃ d r' u', Meaning (s.withDecimal b) k o r' u' ∧ mapNext (State.withDecimal d) r = r' := by
  cases h with
  | adc | sbc | php | brk => simp at hk
  | lda | ldx | ldy | and | ora | eor | bit | cmp | cpx | cpy | rts | pla =>
    exact ⟨b, _, _, by constructor, mapNext_unlessDevice _ _ _⟩
  | sta | stx | sty => exact ⟨b, _, _, by constructor, mapNext_storing s b _ _⟩
  | asl | lsr | rol | ror | inc | dec =>
    exact ⟨b, _, _, by constructor, mapNext_modifying s b _ fun _ _ => rfl⟩
  | pha => exact ⟨b, _, _, .pha, mapNext_pushByte s b s.a⟩
  | jmpInd ptr => exact ⟨b, _, _, .jmpInd ptr, mapNext_guarded _ _ _ _ _⟩
  | jsr addr => exact ⟨b, _, _, .jsr addr, mapNext_jumpSubroutine s b addr⟩
  | cld => exact ⟨false, _, _, .cld, rfl⟩
  | sed => exact ⟨true, _, _, .sed, rfl⟩
  | plp | rti =>
    exact ⟨(Status.ofByte (s.pulled .pulledStatus 0)).d, _, _, by constructor, mapNext_unlessDevice _ _ _⟩
  | _ => exact ⟨b, _, _, by constructor, rfl⟩

end Meaning

/-- Settles O28: `Meaning.withDecimal`, with the D that the other run leaves. -/
theorem decimalFlagAffectsOnlyAddAndSubtract : Obligations.DecimalFlagAffectsOnlyAddAndSubtract := by
  intro i s t b hk h
  obtain ⟨u, hu⟩ := exec_meaning s i
  obtain ⟨d, r, v, hv, hr⟩ := hu.withDecimal hk b
  rw [h] at hr
  exact ⟨d, (exec_eq_of_meaning rfl rfl hv).trans hr.symm⟩

/-! ### AND, ORA, EOR, BIT and the compares -/

/-- A result in A with its N and Z, and the step to the next instruction. -/
theorem State.setA_setNZ_after (s : State) (r : Byte) (i : Instr) :
    ((s.setA r).setNZ r).after i = { s.after i with a := r, p := s.p.fromResult r } := by
  rw [← Status.setNZ_eq_fromResult]
  rfl

/-- Settles O40: each reads its operand, and A, N and Z come from the result (`State.setA_setNZ_after`). -/
theorem logicOperations : Obligations.LogicOperations := by
  refine ⟨hasEncodings_of_perm (by decide), hasEncodings_of_perm (by decide), hasEncodings_of_perm (by decide),
    fun i src s ho hs => ?_⟩
  have hgives (r : Byte → Byte) : s.reading src (fun m => (s.setA (r m)).setNZ (r m)) = .next { s.after i with
      a := r (s.sourceByte src), p := s.p.fromResult (r (s.sourceByte src)) } := by
    rw [State.reading_completes ho hs, State.setA_setNZ_after]
  exact ⟨fun hk => (exec_eq_of_meaning hk ho (.and src)).trans (hgives (s.a &&& ·)),
    fun hk => (exec_eq_of_meaning hk ho (.ora src)).trans (hgives (s.a ||| ·)),
    fun hk => (exec_eq_of_meaning hk ho (.eor src)).trans (hgives (s.a ^^^ ·))⟩

/-- Bit 6 is being at least 64 modulo 128. -/
theorem bit6_eq (b : Byte) : b.getLsbD 6 = decide (64 ≤ b.toNat % 128) := by
  rw [BitVec.getLsbD, Nat.testBit_eq_decide_div_mod_eq, decide_eq_decide]
  omega

/-- The flags after BIT in numbers (spec/42_arithmetic_logic.md R148). -/
theorem Status.bitTest_eq (p : Status) (a b : Byte) :
    p.bitTest a b = { p with
      z := decide ((a &&& b).toNat = 0), n := decide (128 ≤ b.toNat), v := decide (64 ≤ b.toNat % 128) } := by
  rw [Status.bitTest, isZero_eq, bit6_eq, ← bit7_eq, bit7]

/-- Settles O41: BIT reads its operand, and `Status.bitTest_eq` gives the flags. -/
theorem bitTest : Obligations.BitTest := by
  refine ⟨hasEncodings_of_perm (by decide), fun i m s hk ho hm => ?_⟩
  have hexec : exec i s = testBits m s := exec_eq_of_meaning hk ho (.bit m)
  rw [hexec, testBits, State.reading_completes (src := .memory m) ho hm, Status.bitTest_eq]
  rfl

section Fields
variable (a m : Byte) (c : Bool)

theorem addBinary_n : (addBinary a m c).n = decide (128 ≤ (addBinary a m c).r.toNat) := bit7_eq _
theorem addBinary_z : (addBinary a m c).z = decide ((addBinary a m c).r.toNat = 0) := isZero_eq _
theorem addBinary_c : (addBinary a m c).c = decide (256 ≤ a.toNat + m.toNat + c.toNat) := rfl

end Fields

/-- The difference of a compare without its carry. -/
theorem addBinary_complement_toNat (reg m : Byte) :
    (addBinary reg (~~~m) true).r.toNat = (256 + reg.toNat - m.toNat) % 256 := by
  have := m.isLt
  rw [addBinary_r_toNat, complement_toNat, Bool.toNat_true]
  congr 1
  omega

/-- The flags after a compare in numbers (spec/42_arithmetic_logic.md R149 to R151). -/
theorem Status.compare_eq (p : Status) (reg m : Byte) :
    p.compare reg m = { p with
      c := decide (m.toNat ≤ reg.toNat), z := decide (reg = m)
      n := decide (128 ≤ (256 + reg.toNat - m.toNat) % 256) } := by
  have hreg := reg.isLt
  have hm := m.isLt
  have hr := addBinary_complement_toNat reg m
  have hn : (addBinary reg (~~~m) true).n = decide (128 ≤ (256 + reg.toNat - m.toNat) % 256) := by
    rw [addBinary_n, hr]
  have hz : (addBinary reg (~~~m) true).z = decide (reg = m) := by
    rw [addBinary_z, hr, decide_eq_decide, BitVec.toNat_eq]
    omega
  have hc : (addBinary reg (~~~m) true).c = decide (m.toNat ≤ reg.toNat) := by
    rw [addBinary_c, complement_toNat, Bool.toNat_true, decide_eq_decide]
    omega
  rw [Status.compare, hn, hz, hc]

/-- Settles O42: each compare reads its operand, and `Status.compare_eq` gives the flags. -/
theorem compares : Obligations.Compares := by
  refine ⟨hasEncodings_of_perm (by decide), hasEncodings_of_perm (by decide), hasEncodings_of_perm (by decide),
    fun i src s ho hs => ?_⟩
  have hcompares (reg : Byte) :
      compareWith reg src s = .next ((s.setP (s.p.compare reg (s.sourceByte src))).after i) :=
    State.reading_completes ho hs _
  simp only [Status.compare_eq] at hcompares
  exact ⟨fun hk => (exec_eq_of_meaning hk ho (.cmp src)).trans (hcompares s.a),
    fun hk => (exec_eq_of_meaning hk ho (.cpx src)).trans (hcompares s.x),
    fun hk => (exec_eq_of_meaning hk ho (.cpy src)).trans (hcompares s.y)⟩

/-! ### Binary ADC and SBC in numbers -/

/-- ADC where R59 does not refuse its operand: A, N, V, Z and C from `State.sum`. -/
theorem exec_adc {s : State} {i : Instr} {src : Source} (hk : i.mnemonic = .adc) (ho : i.operand = src.operand)
    (hs : ¬ s.refusedSource src) :
    exec i s = .next { s.after i with a := (s.sum (s.sourceByte src)).r, p := s.p.setAlu (s.sum (s.sourceByte src)) } :=
  (exec_eq_of_meaning hk ho (.adc src)).trans (State.reading_completes ho hs _)

/-- SBC where R59 does not refuse its operand: A, N, V, Z and C from `State.difference`. -/
theorem exec_sbc {s : State} {i : Instr} {src : Source} (hk : i.mnemonic = .sbc) (ho : i.operand = src.operand)
    (hs : ¬ s.refusedSource src) :
    exec i s = .next { s.after i with
      a := (s.difference (s.sourceByte src)).r, p := s.p.setAlu (s.difference (s.sourceByte src)) } :=
  (exec_eq_of_meaning hk ho (.sbc src)).trans (State.reading_completes ho hs _)

/-- V of a binary sum: both operands differ from the result in sign exactly where the signed sum lies outside -128..127
(spec/42_arithmetic_logic.md R140). -/
theorem addBinary_v (a m : Byte) (c : Bool) :
    (addBinary a m c).v =
      decide (a.toInt + m.toInt + c.toNat < -128 ∨ 127 < a.toInt + m.toInt + c.toNat) := by
  have ha := a.isLt
  have hm := m.isLt
  have hc := c.toNat_le
  have hr := addBinary_r_toNat a m c
  change bit7 ((a ^^^ (addBinary a m c).r) &&& (m ^^^ (addBinary a m c).r)) = _
  rw [bit7_and, bit7_xor, bit7_xor, bit7_eq, bit7_eq, bit7_eq, hr, BitVec.toInt_eq_toNat_cond,
    BitVec.toInt_eq_toNat_cond, Bool.eq_iff_iff]
  simp only [Bool.and_eq_true, bne_iff_ne, ne_eq, decide_eq_decide, decide_eq_true_eq]
  split_ifs <;> omega

/-- The flags after binary ADC (spec/42_arithmetic_logic.md R140, R141). -/
theorem Status.setAlu_addBinary (p : Status) (a m : Byte) (c : Bool) :
    p.setAlu (addBinary a m c) = { p.fromResult (addBinary a m c).r with
      c := decide (256 ≤ a.toNat + m.toNat + c.toNat)
      v := decide (a.toInt + m.toInt + c.toNat < -128 ∨ 127 < a.toInt + m.toInt + c.toNat) } := by
  rw [← addBinary_v, ← Status.setNZ_eq_fromResult]
  rfl

/-- Settles O35: `State.sum` is the binary one, whose flags `Status.setAlu_addBinary` gives. -/
theorem addBinaryMode : Obligations.AddBinaryMode := by
  refine ⟨hasEncodings_of_perm (by decide), fun i src s hk ho hs hd => ?_⟩
  have hsum : s.sum (s.sourceByte src) = addBinary s.a (s.sourceByte src) s.p.c := by rw [State.sum, hd]
  have hr : (addBinary s.a (s.sourceByte src) s.p.c).r =
      BitVec.ofNat 8 ((s.a.toNat + (s.sourceByte src).toNat + s.p.c.toNat) % 256) :=
    BitVec.eq_of_toNat_eq (by rw [addBinary_r_toNat, BitVec.toNat_ofNat, Nat.mod_mod])
  rw [exec_adc hk ho hs, hsum, Status.setAlu_addBinary, hr]

/-- The exact difference of SBC, before it wraps (spec/42_arithmetic_logic.md R143). -/
def exactDifference (a m : Byte) (c : Bool) : Int := a.toNat - m.toNat - (1 - c.toNat)

/-- The complement as a signed number. -/
theorem complement_toInt (m : Byte) : (~~~m).toInt = -1 - m.toInt := by
  have := m.isLt
  rw [BitVec.toInt_eq_toNat_cond, BitVec.toInt_eq_toNat_cond, complement_toNat]
  split_ifs <;> omega

/-- Adding the complement subtracts. -/
theorem subBinary_r (a m : Byte) (c : Bool) : (subBinary a m c).r = BitVec.ofInt 8 (exactDifference a m c) := by
  have := m.isLt
  apply BitVec.eq_of_toNat_eq
  rw [subBinary, addBinary_r_toNat, complement_toNat, BitVec.toNat_ofInt, exactDifference]
  omega

/-- There is no borrow where the complement's sum carries. -/
theorem subBinary_c (a m : Byte) (c : Bool) : (subBinary a m c).c = decide (0 ≤ exactDifference a m c) := by
  have := m.isLt
  rw [subBinary, addBinary_c, complement_toNat, exactDifference, decide_eq_decide]
  omega

/-- The flags after binary SBC (spec/42_arithmetic_logic.md R140, R143). -/
theorem Status.setAlu_subBinary (p : Status) (a m : Byte) (c : Bool) :
    p.setAlu (subBinary a m c) = { p.fromResult (BitVec.ofInt 8 (exactDifference a m c)) with
      c := decide (0 ≤ exactDifference a m c)
      v := decide (a.toInt - m.toInt - (1 - c.toNat) < -128 ∨ 127 < a.toInt - m.toInt - (1 - c.toNat)) } := by
  have hsigned : a.toInt + (~~~m).toInt + c.toNat = a.toInt - m.toInt - (1 - c.toNat) := by
    rw [complement_toInt]
    omega
  rw [← hsigned, ← addBinary_v, ← subBinary_c, ← subBinary_r, ← Status.setNZ_eq_fromResult]
  rfl

/-- Settles O36: `State.difference` is the binary one, whose flags `Status.setAlu_subBinary` gives. -/
theorem subtractBinaryMode : Obligations.SubtractBinaryMode := by
  refine ⟨hasEncodings_of_perm (by decide), fun i src s hk ho hs hd => ?_⟩
  have hdiff : s.difference (s.sourceByte src) = subBinary s.a (s.sourceByte src) s.p.c := by rw [State.difference, hd]
  have hborrow : ((1 - s.p.c.toNat : Nat) : Int) = 1 - s.p.c.toNat := Nat.cast_sub s.p.c.toNat_le
  have hc : decide (0 ≤ exactDifference s.a (s.sourceByte src) s.p.c) =
      decide ((s.sourceByte src).toNat + (1 - s.p.c.toNat) ≤ s.a.toNat) := by
    rw [exactDifference, decide_eq_decide]
    omega
  rw [exec_sbc hk ho hs, hdiff, Status.setAlu_subBinary, subBinary_r, hc, exactDifference, ← hborrow]

/-! ### Decimal mode -/

/-- The low digit of a sum with its fix, which carries at ten, under `nmos` (spec/42_arithmetic_logic.md R142). -/
def carryLowDigit (low : Nat) : Nat := if 10 ≤ low then (low + 6) % 16 + 16 else low

/-- The sum before the fix of the high digit under `nmos` (spec/42_arithmetic_logic.md R142). -/
def nmosHalfSum (a m : Byte) (c : Bool) : Nat :=
  16 * highDigit a + 16 * highDigit m + carryLowDigit (lowDigit a + lowDigit m + c.toNat)

/-- The sum after the fix of both digits under `nmos` (spec/42_arithmetic_logic.md R142). -/
def nmosSum (a m : Byte) (c : Bool) : Nat :=
  if 0xA0 ≤ nmosHalfSum a m c then nmosHalfSum a m c + 0x60 else nmosHalfSum a m c

theorem addDecimalNmos_r (a m : Byte) (c : Bool) : (addDecimalNmos a m c).r = BitVec.ofNat 8 (nmosSum a m c) := rfl

theorem addDecimalNmos_c (a m : Byte) (c : Bool) : (addDecimalNmos a m c).c = decide (256 ≤ nmosSum a m c) := rfl

/-- The low digit of a difference with its fix, which borrows ten, under `nmos` (spec/42_arithmetic_logic.md R142). -/
def borrowLowDigit (low : Int) : Int := if low < 0 then (low - 6) % 16 - 16 else low

/-- The difference before the fix of the high digit under `nmos` (spec/42_arithmetic_logic.md R142). -/
def nmosHalfDifference (a m : Byte) (c : Bool) : Int :=
  16 * highDigit a - 16 * highDigit m + borrowLowDigit (lowDigit a - lowDigit m - (1 - c.toNat))

/-- The difference after the fix of both digits under `nmos` (spec/42_arithmetic_logic.md R142). -/
def nmosDifference (a m : Byte) (c : Bool) : Int :=
  if nmosHalfDifference a m c < 0 then nmosHalfDifference a m c - 0x60 else nmosHalfDifference a m c

theorem subDecimalNmos_eq (a m : Byte) (c : Bool) :
    subDecimalNmos a m c = { subBinary a m c with r := BitVec.ofInt 8 (nmosDifference a m c) } := rfl

/-- The exact decimal sum (spec/42_arithmetic_logic.md R142). -/
def bcdSum (a m : Byte) (c : Bool) : Nat := bcdValue a + bcdValue m + c.toNat

/-- The exact decimal difference (spec/42_arithmetic_logic.md R142). -/
def bcdDifference (a m : Byte) (c : Bool) : Int := bcdValue a - bcdValue m - (1 - c.toNat)

theorem validBcd_iff (b : Byte) : validBcd b = true ↔ highDigit b ≤ 9 ∧ lowDigit b ≤ 9 := by
  rw [validBcd, Bool.and_eq_true, decide_eq_true_iff, decide_eq_true_iff]

section ValidBcd
variable {a m : Byte} (ha : validBcd a = true) (hm : validBcd m = true) (c : Bool)
include ha hm

theorem addDecimalStrict_of_valid (d : Nat) : addDecimalStrict d a m c =
    strictDecimal d (toBcd (bcdSum a m c % 100)) (decide (100 ≤ bcdSum a m c)) := by
  rw [addDecimalStrict, if_pos (Bool.and_eq_true_iff.2 ⟨ha, hm⟩)]
  rfl

theorem subDecimalStrict_of_valid (d : Nat) : subDecimalStrict d a m c =
    strictDecimal d (toBcd (bcdDifference a m c % 100).toNat) (decide (0 ≤ bcdDifference a m c)) := by
  rw [subDecimalStrict, if_pos (Bool.and_eq_true_iff.2 ⟨ha, hm⟩)]
  rfl

/-- Both fixes of the digits together carry at ten where the binary sum carries at sixteen. -/
theorem nmosSum_of_valid : nmosSum a m c =
    256 * (bcdSum a m c / 100) + (16 * (bcdSum a m c % 100 / 10) + bcdSum a m c % 100 % 10) := by
  obtain ⟨hha, hla⟩ := (validBcd_iff a).1 ha
  obtain ⟨hhm, hlm⟩ := (validBcd_iff m).1 hm
  have hc := c.toNat_le
  rw [nmosSum, nmosHalfSum, carryLowDigit, bcdSum, bcdValue, bcdValue]
  split_ifs <;> omega

/-- Both fixes of the digits together borrow ten where the binary difference borrows sixteen. -/
theorem nmosDifference_of_valid : nmosDifference a m c =
    256 * (bcdDifference a m c / 100) + (16 * (bcdDifference a m c % 100 / 10) + bcdDifference a m c % 100 % 10) := by
  obtain ⟨hha, hla⟩ := (validBcd_iff a).1 ha
  obtain ⟨hhm, hlm⟩ := (validBcd_iff m).1 hm
  have hc := c.toNat_le
  rw [nmosDifference, nmosHalfDifference, borrowLowDigit, bcdDifference, bcdValue, bcdValue]
  split_ifs <;> omega

/-- Packed digits borrow exactly where their values do. -/
theorem exactDifference_nonneg_iff : 0 ≤ exactDifference a m c ↔ 0 ≤ bcdDifference a m c := by
  obtain ⟨hha, hla⟩ := (validBcd_iff a).1 ha
  obtain ⟨hhm, hlm⟩ := (validBcd_iff m).1 hm
  have hc := c.toNat_le
  simp only [exactDifference, bcdDifference, bcdValue, highDigit, lowDigit] at *
  omega

end ValidBcd

/-- Settles O39: `nmosSum` and `nmosDifference` are the decimal ones with a carry or a borrow of 256. -/
theorem nmosAgreesWithStrict : Obligations.NmosAgreesWithStrict := by
  intro d a m c ha hm
  rw [addDecimalStrict_of_valid ha hm, subDecimalStrict_of_valid ha hm, addDecimalNmos_r, addDecimalNmos_c,
    nmosSum_of_valid ha hm, subDecimalNmos_eq, nmosDifference_of_valid ha hm]
  refine ⟨?_, ?_, ?_, ?_⟩
  · apply BitVec.eq_of_toNat_eq
    simp only [strictDecimal, toBcd, BitVec.toNat_ofNat]
    omega
  · simp only [strictDecimal, decide_eq_decide]
    omega
  · apply BitVec.eq_of_toNat_eq
    simp only [strictDecimal, toBcd, BitVec.toNat_ofNat, BitVec.toNat_ofInt]
    omega
  · simp only [strictDecimal, subBinary_c, exactDifference_nonneg_iff ha hm]

/-- Settles O37: `State.sum` and `State.difference` are the exact ones of two valid operands, and either completes. -/
theorem decimalModeStrict : Obligations.DecimalModeStrict := by
  intro i src s ho hs hd hp m valid dec sum difference gives
  have hsum : s.sum m = addDecimalStrict s.draws s.a m s.p.c := by rw [State.sum, hd, hp]
  have hdiff : s.difference m = subDecimalStrict s.draws s.a m s.p.c := by rw [State.difference, hd, hp]
  have hadc (hk : i.mnemonic = .adc) : gives (s.sum m).r (s.sum m).c := ⟨_, _, _, exec_adc hk ho hs⟩
  have hsbc (hk : i.mnemonic = .sbc) : gives (s.difference m).r (s.difference m).c := ⟨_, _, _, exec_sbc hk ho hs⟩
  have hbcd (hv : valid) : validBcd s.a = true ∧ validBcd m = true := by
    obtain ⟨hha, hla, hhm, hlm⟩ := hv
    exact ⟨(validBcd_iff s.a).2 ⟨hha, hla⟩, (validBcd_iff m).2 ⟨hhm, hlm⟩⟩
  refine ⟨fun hk hv => ?_, fun hk hv => ?_, fun hk => ?_⟩
  · obtain ⟨ha, hm⟩ := hbcd hv
    have hdigit : sum % 100 % 10 = sum % 10 := Nat.mod_mod_of_dvd sum (by decide)
    rw [← hdigit]
    have hgives := hadc hk
    rwa [hsum, addDecimalStrict_of_valid ha hm] at hgives
  · obtain ⟨ha, hm⟩ := hbcd hv
    refine ⟨(difference % 100).toNat, by omega, by omega, ?_⟩
    have hgives := hsbc hk
    rwa [hdiff, subDecimalStrict_of_valid ha hm] at hgives
  · obtain hk | hk : i.mnemonic = .adc ∨ i.mnemonic = .sbc := by simpa using hk
    · exact ⟨_, _, hadc hk⟩
    · exact ⟨_, _, hsbc hk⟩

/-- The high digit in its place. -/
theorem sixteen_mul_highDigit (b : Byte) : 16 * highDigit b = b.toNat - b.toNat % 16 := by
  rw [highDigit]
  omega

/-- The high digit in its place, among the integers. -/
theorem sixteen_mul_highDigit_int (b : Byte) : (16 * highDigit b : Int) = (b.toNat - b.toNat % 16 : Nat) := by
  rw [← sixteen_mul_highDigit]
  rfl

/-- The flags after decimal ADC under `nmos` (spec/42_arithmetic_logic.md R142). -/
theorem Status.setAlu_addDecimalNmos (p : Status) (a m : Byte) (c : Bool) :
    p.setAlu (addDecimalNmos a m c) = { p with
      n := decide (128 ≤ (BitVec.ofNat 8 (nmosHalfSum a m c)).toNat)
      z := decide ((a.toNat + m.toNat + c.toNat) % 256 = 0)
      c := decide (256 ≤ nmosSum a m c)
      v := decide (128 ≤ ((a ^^^ BitVec.ofNat 8 (nmosHalfSum a m c)) &&&
        (m ^^^ BitVec.ofNat 8 (nmosHalfSum a m c))).toNat) } := by
  rw [← bit7_eq, ← bit7_eq]
  rfl

/-- Settles O38: `State.sum` and `State.difference` under `nmos`, with each high digit in its place. -/
theorem decimalModeNmos : Obligations.DecimalModeNmos := by
  intro i src s ho hs hd hp m a c
  refine ⟨fun hk => ?_, fun hk => ?_⟩
  · intro low al sum half fixed
    have hsum : s.sum m = addDecimalNmos s.a m s.p.c := by rw [State.sum, hd, hp]
    have hhalf : nmosHalfSum s.a m s.p.c = sum := by
      rw [nmosHalfSum, sixteen_mul_highDigit, sixteen_mul_highDigit]
      rfl
    have hfixed : nmosSum s.a m s.p.c = fixed := by rw [nmosSum, hhalf]
    rw [exec_adc hk ho hs, hsum, Status.setAlu_addDecimalNmos, addDecimalNmos_r, hhalf, hfixed]
  · intro low al diff fixed b signed
    have hdiff : s.difference m = subDecimalNmos s.a m s.p.c := by rw [State.difference, hd, hp]
    have hhalf : nmosHalfDifference s.a m s.p.c = diff := by
      rw [nmosHalfDifference, sixteen_mul_highDigit_int, sixteen_mul_highDigit_int]
      rfl
    have hfixed : nmosDifference s.a m s.p.c = fixed := by rw [nmosDifference, hhalf]
    have hflags : s.p.setAlu (subDecimalNmos s.a m s.p.c) = s.p.setAlu (subBinary s.a m s.p.c) := rfl
    rw [exec_sbc hk ho hs, hdiff, hflags, Status.setAlu_subBinary, subDecimalNmos_eq, hfixed]
    rfl

end Sys2Proof.Machine

end

/-! The statements of spec/43_shift_incdec.md. A read-modify-write goes on to the next instruction (`State.modifying_completes`),
and so does a shift of A (`State.shifting_accumulator_completes`); what is left is to say each result in numbers
(`shiftInNumbers`). C and A are one ring of nine bits that a rotate turns by one place (`State.carryRing`). -/

section

namespace Sys2Proof.Machine

/-! ### One more and one less -/

/-- "M + 1" modulo 256, in numbers (spec/43_shift_incdec.md R165). -/
theorem add_one_eq_ofNat (b : Byte) : b + 1 = BitVec.ofNat 8 ((b.toNat + 1) % 256) := by
  apply BitVec.eq_of_toNat_eq
  simp

/-- "M - 1" modulo 256, in numbers (spec/43_shift_incdec.md R166). -/
theorem sub_one_eq_ofNat (b : Byte) : b - 1 = BitVec.ofNat 8 ((b.toNat + 255) % 256) := by
  apply BitVec.eq_of_toNat_eq
  simp [BitVec.toNat_sub, Nat.add_comm]

/-- Settles O46: each sets its register, then N and Z, and goes to the next instruction (`State.setNZ_advance`). -/
theorem incrementAndDecrementRegisters : Obligations.IncrementAndDecrementRegisters := by
  refine ⟨hasEncodings_of_perm (by decide), hasEncodings_of_perm (by decide), hasEncodings_of_perm (by decide),
    hasEncodings_of_perm (by decide), fun s => ?_⟩
  simp only [← add_one_eq_ofNat, ← sub_one_eq_ofNat]
  exact ⟨congrArg Host.Outcome.next ((s.setX (s.x + 1)).setNZ_advance (s.x + 1) .inx),
    congrArg Host.Outcome.next ((s.setY (s.y + 1)).setNZ_advance (s.y + 1) .iny),
    congrArg Host.Outcome.next ((s.setX (s.x - 1)).setNZ_advance (s.x - 1) .dex),
    congrArg Host.Outcome.next ((s.setY (s.y - 1)).setNZ_advance (s.y - 1) .dey)⟩

/-! ### Read-modify-write -/

/-- A read-modify-write where R59 does not refuse it: the byte, the flags, the next instruction, and nothing else. -/
theorem State.modifying_completes {s : State} {i : Instr} {m : MemMode} (hw : s.mem.wf = true)
    (ho : i.operand = .memory m) (hm : ¬ s.sideEffectOperand m) (f : Byte → Status → Shifted) :
    ∃ t, s.modifying m f = .next t ∧ StoresAt s t (s.ea m) (f (s.sourceByte (.memory m)) s.p).r ∧
      { t with mem := s.mem } = { s.after i with p := (f (s.sourceByte (.memory m)) s.p).p } := by
  have htouch : s.modifyTouches m = false := by rwa [← Bool.not_eq_true, State.modifyTouches_iff]
  have hleaves : s.modified m f = ((s.write (s.ea m) (f (s.sourceByte (.memory m)) s.p).r).setP
      (f (s.sourceByte (.memory m)) s.p).p).after i := by
    rw [State.modified, ← Instr.length_of_memory ho, State.advance_length]
    rfl
  refine ⟨s.modified m f, (s.modifying_next_iff _ m f).2 ⟨htouch, rfl⟩, (StoresAt.write hw _ _).congr rfl rfl, ?_⟩
  rw [hleaves, State.write_eq]
  rfl

/-- Settles O45: each is `State.modifying` of its operation. -/
theorem incrementAndDecrementMemory : Obligations.IncrementAndDecrementMemory := by
  refine ⟨hasEncodings_of_perm (by decide), hasEncodings_of_perm (by decide), fun i m s ho hw hm => ?_⟩
  simp only [← add_one_eq_ofNat, ← sub_one_eq_ofNat, ← Status.setNZ_eq_fromResult]
  refine ⟨fun hk => ?_, fun hk => ?_⟩
  · rw [exec_eq_of_meaning hk ho (.inc m)]
    exact State.modifying_completes hw ho hm increment
  · rw [exec_eq_of_meaning hk ho (.dec m)]
    exact State.modifying_completes hw ho hm decrement

/-! ### Shifts and rotates in numbers -/

/-- Bits that stand where the other byte has none add up. -/
theorem or_toNat_of_low {high low : Byte} {n k : Nat} (hhigh : high.toNat = n <<< k) (hlow : low.toNat < 2 ^ k) :
    (high ||| low).toNat = high.toNat + low.toNat := by
  rw [BitVec.toNat_or, hhigh, Nat.shiftLeft_add_eq_or_of_lt hlow]

/-- A shift or rotate as spec/43_shift_incdec.md R161 to R164 give it: the result, the bit that leaves, N and Z. -/
def shiftInNumbers (k : Mnemonic) (m : Byte) (p : Status) : Shifted where
  r := shiftedByte k m p.c
  p := { p.fromResult (shiftedByte k m p.c) with c := shiftedOut k m }

/-- One place to the left, bit 0 empty. -/
theorem shl_one_toNat (m : Byte) : (m <<< 1).toNat = 2 * m.toNat % 256 := by
  simp [BitVec.toNat_shiftLeft, Nat.shiftLeft_eq, Nat.mul_comm]

/-- One place to the right, bit 7 empty. -/
theorem shr_one_toNat (m : Byte) : (m >>> 1).toNat = m.toNat / 2 := by
  simp [Nat.shiftRight_eq_div_pow]

theorem shiftLeft_r (m : Byte) (p : Status) : (shiftLeft m p).r = shiftedByte .asl m p.c :=
  BitVec.eq_of_toNat_eq (shl_one_toNat m)

theorem shiftRight_r (m : Byte) (p : Status) : (shiftRight m p).r = shiftedByte .lsr m p.c := by
  have hm := m.isLt
  apply BitVec.eq_of_toNat_eq
  simp only [shiftRight, shiftedByte, shr_one_toNat, BitVec.toNat_ofNat]
  omega

/-- The carry enters bit 0, which the shift left empty. -/
theorem rotateLeft_r (m : Byte) (p : Status) : (rotateLeft m p).r = shiftedByte .rol m p.c := by
  have hc : ((BitVec.ofBool p.c).setWidth 8).toNat = p.c.toNat := by cases p.c <;> rfl
  have hhigh : (m <<< 1).toNat = (m.toNat % 128) <<< 1 := by
    rw [shl_one_toNat, Nat.shiftLeft_eq]
    omega
  have hlt : p.c.toNat < 2 ^ 1 := p.c.toNat_lt
  apply BitVec.eq_of_toNat_eq
  simp only [rotateLeft, shiftedByte]
  rw [or_toNat_of_low hhigh (hc ▸ hlt), shl_one_toNat, hc, BitVec.toNat_ofNat]
  omega

/-- The carry enters bit 7, which the shift left empty. -/
theorem rotateRight_r (m : Byte) (p : Status) : (rotateRight m p).r = shiftedByte .ror m p.c := by
  have hm := m.isLt
  have hhigh : ((BitVec.ofBool p.c).setWidth 8 <<< 7).toNat = p.c.toNat <<< 7 := by cases p.c <;> rfl
  have hlow : (m >>> 1).toNat < 2 ^ 7 := by
    rw [shr_one_toNat]
    omega
  have hlt := p.c.toNat_lt
  apply BitVec.eq_of_toNat_eq
  simp only [rotateRight, shiftedByte]
  rw [BitVec.or_comm, or_toNat_of_low hhigh hlow, shr_one_toNat, hhigh, Nat.shiftLeft_eq, BitVec.toNat_ofNat]
  omega

/-- Bit 0 is being odd. -/
theorem bit0_eq (b : Byte) : b.getLsbD 0 = decide (b.toNat % 2 = 1) := by
  rw [BitVec.getLsbD, Nat.testBit_zero]

/-- A result with the N and Z it sets and the bit that leaves, in numbers. -/
theorem eq_shiftInNumbers {k : Mnemonic} {m r : Byte} {p : Status} {c : Bool} (hr : r = shiftedByte k m p.c)
    (hc : c = shiftedOut k m) : ⟨r, { p.setNZ r with c := c }⟩ = shiftInNumbers k m p := by
  rw [shiftInNumbers, ← hr, ← hc, ← Status.setNZ_eq_fromResult]

theorem shiftLeft_eq : shiftLeft = shiftInNumbers .asl := by
  funext m p
  exact eq_shiftInNumbers (shiftLeft_r m p) (bit7_eq m)

/-- The N that LSR forces to 0 is bit 7 of its result, which is empty. -/
theorem shiftRight_eq : shiftRight = shiftInNumbers .lsr := by
  funext m p
  have hn : false = bit7 (m >>> 1) := by simp [bit7]
  rw [← eq_shiftInNumbers (shiftRight_r m p) (bit0_eq m), shiftRight, hn]
  rfl

theorem rotateLeft_eq : rotateLeft = shiftInNumbers .rol := by
  funext m p
  exact eq_shiftInNumbers (rotateLeft_r m p) (bit7_eq m)

theorem rotateRight_eq : rotateRight = shiftInNumbers .ror := by
  funext m p
  exact eq_shiftInNumbers (rotateRight_r m p) (bit0_eq m)

/-! ### Shifts and rotates as instructions -/

/-- What the mnemonic of a shift selects. -/
theorem Meaning.shift {s u : State} {k : Mnemonic} {o : Operand} {r : Result} (h : Meaning s k o r u)
    (hk : k ∈ [.asl, .lsr, .rol, .ror]) :
    (o = .accumulator → r = s.shifting .accumulator (shiftInNumbers k)) ∧
      ∀ m, o = .memory m → r = s.modifying m (shiftInNumbers k) := by
  cases h with
  | asl | lsr | rol | ror | aslA | lsrA | rolA | rorA =>
    simp [shiftLeft_eq, shiftRight_eq, rotateLeft_eq, rotateRight_eq]
  | _ => simp at hk

/-- A shift of A goes on to the next instruction. -/
theorem State.shifting_accumulator_completes {i : Instr} (ho : i.operand = .accumulator) (s : State)
    (f : Byte → Status → Shifted) :
    s.shifting .accumulator f = .next { s.after i with a := (f s.a s.p).r, p := (f s.a s.p).p } := by
  have hlen : i.length = 1 := by
    rw [Instr.length, encode, ho]
    rfl
  rw [State.shifting_accumulator, ← hlen, State.advance_length]
  rfl

/-- Settles O43: what the mnemonic selects, on A (`State.shifting_accumulator_completes`) and in memory
(`State.modifying_completes`). -/
theorem shiftsAndRotates : Obligations.ShiftsAndRotates := by
  refine ⟨hasEncodings_of_perm (by decide), hasEncodings_of_perm (by decide), hasEncodings_of_perm (by decide),
    hasEncodings_of_perm (by decide), fun i s hk => ?_⟩
  obtain ⟨u, hu⟩ := exec_meaning s i
  obtain ⟨hacc, hmem⟩ := hu.shift hk
  refine ⟨fun ho => ?_, fun m ho hw hm => ?_⟩
  · rw [hacc ho]
    exact State.shifting_accumulator_completes ho s _
  · rw [hmem m ho]
    exact State.modifying_completes hw ho hm _

/-! ### The ring of nine bits -/

/-- A, bit 0 first, and C after its bit 7. -/
def State.carryRing (s : State) (k : Fin 9) : Bool := if k = 8 then s.p.c else s.a.getLsbD k

/-- The ring holds all of A and C. -/
theorem State.eq_of_carryRing_eq {s t : State} (h : s.carryRing = t.carryRing) : s.a = t.a ∧ s.p.c = t.p.c := by
  refine ⟨BitVec.eq_of_getLsbD_eq fun k hk => ?_, congrFun h 8⟩
  have hne : (⟨k, by omega⟩ : Fin 9) ≠ 8 := fun heq => by simp [Fin.ext_iff] at heq; omega
  simpa [State.carryRing, hne] using congrFun h ⟨k, by omega⟩

/-- A ROL of A moves every bit of the ring up by one place (spec/43_shift_incdec.md R163). -/
theorem State.carryRing_rotateLeft (s : State) :
    (s.shiftedA rotateLeft).carryRing = fun k => s.carryRing (k - 1) := by
  funext k
  fin_cases k
  · have hlast : (0 - 1 : Fin 9) = 8 := by decide
    simp [State.carryRing, State.shiftedA, rotateLeft, hlast]
  all_goals simp [State.carryRing, State.shiftedA, rotateLeft]

/-- A ROR of A moves every bit of the ring down by one place (spec/43_shift_incdec.md R164). -/
theorem State.carryRing_rotateRight (s : State) :
    (s.shiftedA rotateRight).carryRing = fun k => s.carryRing (k + 1) := by
  funext k
  fin_cases k <;> simp [State.carryRing, State.shiftedA, rotateRight]

/-- An instruction that moves every bit of the ring to a place that comes round after nine moves restores A and C when
it is run nine times. -/
theorem nine_turns_restore {i : Instr} {turn : State → State} {place : Fin 9 → Fin 9}
    (hexec : ∀ t, exec i t = .next (turn t)) (hplace : ∀ k, place^[9] k = k)
    (hturn : ∀ t : State, (turn t).carryRing = t.carryRing ∘ place) (s : State) :
    ∃ u : Nat → State, u 0 = s ∧ (∀ k < 9, exec i (u k) = .next (u (k + 1))) ∧
      (u 9).a = s.a ∧ (u 9).p.c = s.p.c := by
  refine ⟨fun n => turn^[n] s, rfl, fun k _ => ?_, State.eq_of_carryRing_eq ?_⟩
  · simp only [Function.iterate_succ_apply', hexec]
  · have hsemi : Function.Semiconj State.carryRing turn (· ∘ place) := hturn
    rw [hsemi.iterate_right 9 s]
    exact funext fun k => congrArg s.carryRing (hplace k)

/-- Settles O44: the ring has nine places, and a ROL and a ROR turn it opposite ways. -/
theorem nineRotatesRestore : Obligations.NineRotatesRestore := by
  intro s
  refine ⟨fun i hi => ?_, s.shiftedA rotateLeft, (s.shiftedA rotateLeft).shiftedA rotateRight, rfl, rfl,
    State.eq_of_carryRing_eq ?_⟩
  · obtain rfl | rfl : i = .rolAcc ∨ i = .rorAcc := by simpa using hi
    · exact nine_turns_restore (fun _ => rfl) (by decide) State.carryRing_rotateLeft s
    · exact nine_turns_restore (fun _ => rfl) (by decide) State.carryRing_rotateRight s
  · rw [State.carryRing_rotateRight, State.carryRing_rotateLeft]
    exact funext fun k => congrArg s.carryRing (add_sub_cancel_right k 1)

end Sys2Proof.Machine

end

/-! The statements of spec/44_branch_jump.md. The bytes that pushes write are apart (`State.phys_stackAddr_inj`), so
`Pushes` grows byte by byte (`Pushes.push`), and on a plain stack pulls give the pushed bytes back, last first
(`Pushes.pulled`). -/

section

namespace Sys2Proof.Machine

/-! ### Branches and jumps -/

/-- A branch in numbers (spec/44_branch_jump.md R180). -/
theorem branchIf_eq (cond : Bool) (rel : Byte) (s : State) : branchIf cond rel s = .next (s.branched rel cond) := by
  have hpc : (if cond then s.branchTarget rel else s.afterBranch) = (s.branched rel cond).pc := by
    cases cond with
    | true => exact (s.branched_true_pc rel).symm
    | false => exact (s.branched_false_pc rel).symm
  rw [branchIf, hpc]
  rfl

/-- Settles O47: each branch is `branchIf` of the flag it tests. -/
theorem branches : Obligations.Branches := by
  refine ⟨hasEncodings_of_perm (by decide), hasEncodings_of_perm (by decide), hasEncodings_of_perm (by decide),
    hasEncodings_of_perm (by decide), hasEncodings_of_perm (by decide), hasEncodings_of_perm (by decide),
    hasEncodings_of_perm (by decide), hasEncodings_of_perm (by decide), fun s rel => ?_⟩
  simp only [Bool.decide_eq_true, Bool.decide_eq_false]
  exact ⟨branchIf_eq (!s.p.c) rel s, branchIf_eq s.p.c rel s, branchIf_eq s.p.z rel s, branchIf_eq s.p.n rel s,
    branchIf_eq (!s.p.z) rel s, branchIf_eq (!s.p.n) rel s, branchIf_eq (!s.p.v) rel s, branchIf_eq s.p.v rel s⟩

/-- JMP (indirect) with a pointer that the configuration refuses (spec/40_addressing_modes.md R112). -/
theorem execJmpInd_refused {s : State} {ptr : Addr} (hend : ptr.toNat % 256 = 255)
    (hc : s.config.jmpIndWrap = .refuse) :
    exec (.jmpInd ptr) s = .refused .jmpIndirectWrap := by
  have hrefuses : s.refusesPointer ptr = true := by
    rw [State.refusesPointer, decide_eq_true ((loByte_eq_iff ptr).2 hend), decide_eq_true hc]
    rfl
  exact if_pos hrefuses

/-- Settles O48: the pointer's page and the setting say where the high byte is read (`execJmpInd_goes`). -/
theorem jumps : Obligations.Jumps := by
  refine ⟨hasEncodings_of_perm (by decide), fun s a => ⟨rfl, fun hin hplain => ?_, fun hend =>
    ⟨execJmpInd_refused hend, fun hc hplain => ?_, fun hc hplain => ?_⟩⟩⟩
  · rw [← State.indirectHighAddr_inside (s := s) hin] at hplain ⊢
    exact execJmpInd_goes (absurd · hin) hplain.1 hplain.2
  · rw [← State.indirectHighAddr_carry hend hc] at hplain ⊢
    exact execJmpInd_goes (fun _ => by simp [hc]) hplain.1 hplain.2
  · rw [← State.indirectHighAddr_noCarry hend hc] at hplain ⊢
    exact execJmpInd_goes (fun _ => by simp [hc]) hplain.1 hplain.2

/-! ### The stack -/

/-- The stack is the 256 bytes from 0x0100 (spec/20_memory.md R60). -/
theorem stackAddr_toNat (sp : Byte) : (stackAddr sp).toNat = 256 + sp.toNat := by
  have := sp.isLt
  rw [stackAddr, BitVec.toNat_add, zext16_toNat, BitVec.toNat_ofNat]
  omega

/-- Every platform has all of the stack (spec/20_memory.md R51). -/
theorem State.phys_stackAddr (s : State) (sp : Byte) : s.phys (stackAddr sp) = 256 + sp.toNat := by
  have := sp.isLt
  have hspace : 8192 ≤ s.config.variant.addressSpace := by cases s.config.variant <;> decide
  rw [State.phys, stackAddr_toNat, Nat.mod_eq_of_lt (by omega)]

/-- Two values of S select two bytes. -/
theorem State.phys_stackAddr_inj (s : State) (b c : Byte) : s.phys (stackAddr b) = s.phys (stackAddr c) ↔ b = c := by
  rw [s.phys_stackAddr, s.phys_stackAddr, Nat.add_left_cancel_iff, BitVec.toNat_eq]

/-- Fewer than 256 pushes apart, S has two values. -/
theorem sub_ofNat_ne (sp : Byte) {k n : Nat} (hk : k < n) (hn : n < 256) :
    sp - BitVec.ofNat 8 n ≠ sp - BitVec.ofNat 8 k := by
  rw [ne_eq, sub_right_inj, BitVec.toNat_eq, BitVec.toNat_ofNat, BitVec.toNat_ofNat]
  omega

/-- A push leaves everything but S and memory. -/
theorem State.push_frame (s : State) (v : Byte) : { s.push v with sp := s.sp, mem := s.mem } = s := by
  rw [State.push, State.write_eq]
  rfl

/-- Pushing an address leaves everything but S and memory. -/
theorem State.pushAddr_frame (s : State) (a : Addr) : { s.pushAddr a with sp := s.sp, mem := s.mem } = s := by
  calc { s.pushAddr a with sp := s.sp, mem := s.mem }
    _ = { s.push (hiByte a) with sp := s.sp, mem := s.mem } :=
      congrArg (fun t : State => { t with sp := s.sp, mem := s.mem }) ((s.push (hiByte a)).push_frame (loByte a))
    _ = s := s.push_frame (hiByte a)

section Pushes
variable {s t : State} {vs : List Byte}

/-- Nothing pushed. -/
theorem Pushes.nil (s : State) : Pushes s s [] := ⟨(BitVec.sub_zero s.sp).symm, by simp, by simp⟩

/-- One more push, where fewer than 256 came before it. -/
theorem Pushes.push (h : Pushes s t vs) (hc : t.config = s.config) (hw : t.mem.wf = true) (hn : vs.length < 256)
    (v : Byte) : Pushes s (t.push v) (vs ++ [v]) := by
  obtain ⟨hsp, hbytes, hrest⟩ := h
  have hpeek (b : Addr) : (t.push v).peek b =
      if s.kindAt (stackAddr t.sp) = .ram ∧ s.phys (stackAddr t.sp) = s.phys b then v else t.peek b := by
    rw [State.peek_push hw, State.kindAt_congr hc, State.phys_congr hc, State.phys_congr hc]
  refine ⟨?_, fun k w hk hram => ?_, fun b hb => ?_⟩
  · rw [State.push_sp, hsp, List.length_append, List.length_singleton, BitVec.ofNat_add, BitVec.sub_sub]
    rfl
  · obtain hlt | rfl | hgt := lt_trichotomy k vs.length
    · rw [hpeek, if_neg]
      · exact hbytes k w (by rwa [List.getElem?_append_left hlt] at hk) hram
      · rintro ⟨-, hsame⟩
        rw [State.phys_stackAddr_inj, hsp] at hsame
        exact sub_ofNat_ne s.sp hlt hn hsame
    · rw [List.getElem?_concat_length] at hk
      rw [hpeek, hsp, if_pos ⟨hram, rfl⟩, Option.some.inj hk]
    · simp [List.getElem?_append_right hgt.le, Nat.sub_ne_zero_of_lt hgt] at hk
  · rw [hpeek, if_neg]
    · refine hrest b (hb.imp_right fun hne k hk => hne k ?_)
      rw [List.length_append]
      omega
    · rintro ⟨hram, hsame⟩
      obtain hkind | hne := hb
      · exact hkind ((State.kindAt_of_phys hsame).symm.trans hram)
      · exact hne vs.length (by simp) (by rw [← hsp, hsame])

/-- An address is pushed high byte first (spec/44_branch_jump.md R189). -/
theorem Pushes.pushAddr (hw : s.mem.wf = true) (a : Addr) : Pushes s (s.pushAddr a) [hiByte a, loByte a] :=
  ((Pushes.nil s).push rfl hw (by decide) (hiByte a)).push (s.push_config _)
    (State.push_mem_wf hw _) (by simp) (loByte a)

/-- As many pulls as pushes give S back (spec/20_memory.md R60, R61). -/
theorem Pushes.sp_add (h : Pushes s t vs) : t.sp + BitVec.ofNat 8 vs.length = s.sp := by
  rw [h.1, BitVec.sub_add_cancel]

/-- On a plain stack pulls give the pushed bytes back, last first (spec/20_memory.md R60, R61). -/
theorem Pushes.pulled (h : Pushes s t vs) (hs : PlainStack s) (hc : t.config = s.config) {k : Nat} {v : Byte}
    (hk : vs.reverse[k]? = some v) (u : ByteUse) : t.pulled u k = v := by
  obtain ⟨hsp, hbytes, -⟩ := h
  have hlt : k < vs.length := by simpa using (List.getElem?_eq_some_iff.1 hk).1
  have hplace : t.sp + BitVec.ofNat 8 (k + 1) = s.sp - BitVec.ofNat 8 (vs.length - 1 - k) := by
    have hsplit : vs.length = (vs.length - 1 - k) + (k + 1) := by omega
    rw [hsp, hsplit, BitVec.ofNat_add, ← BitVec.sub_sub, BitVec.sub_add_cancel]
    congr 2
    omega
  rw [State.pulled, State.read_ram ((hs.congr hc).2 _) (hs.congr hc).1, hplace]
  rw [List.getElem?_reverse hlt] at hk
  exact hbytes _ v hk (hs.2 _)

end Pushes

/-! ### Subroutines -/

/-- Settles O50: the two pushes of an address, unless R189 or R59 refuses them. -/
theorem jumpToSubroutine : Obligations.JumpToSubroutine := by
  refine ⟨hasEncodings_of_perm (by decide), fun s addr hw => ⟨fun hunder => ?_, fun hunder hpush => ?_⟩⟩
  · exact if_pos (s.jsrOverlaps_iff.2 hunder)
  · have hnext : exec (.jsr addr) s = .next ((s.pushAddr (s.pc + 2)).setPc addr) :=
      (if_neg (mt s.jsrOverlaps_iff.1 hunder)).trans
        (unlessDevice_of_eq_false (by rwa [← Bool.not_eq_true, State.pushTouches_iff]) _)
    exact ⟨_, hnext, Pushes.pushAddr hw (s.pc + 2),
      congrArg (fun t : State => t.setPc addr) (s.pushAddr_frame (s.pc + 2))⟩

/-- Settles O51: the two pulls, unless R59 refuses them. -/
theorem returnFromSubroutine : Obligations.ReturnFromSubroutine := by
  refine ⟨hasEncodings_of_perm (by decide), fun s hpull => ?_⟩
  have htouch : s.pullTouches 2 = false := by rwa [← Bool.not_eq_true, State.pullTouches_iff]
  rw [← joinBytes_eq_word]
  exact unlessDevice_of_eq_false htouch _

/-- Settles O52: RTS pulls the address that JSR pushed, and adds the one that is missing. -/
theorem returnUndoesJump : Obligations.ReturnUndoesJump := by
  intro s addr hw hs hunder
  have hpush : ¬ s.refusedPush 2 := by
    rw [← State.pushTouches_iff, hs.not_pushTouches]
    exact Bool.false_ne_true
  obtain ⟨t, hjsr, hpushes, hframe⟩ := (jumpToSubroutine.2 s addr hw).2 hunder hpush
  have hc : t.config = s.config := (congrArg State.config hframe :)
  have hpull : ¬ t.refusedPull 2 := by
    rw [← State.pullTouches_iff, (hs.congr hc).not_pullTouches]
    exact Bool.false_ne_true
  have hlow : t.read .pulledLow (stackAddr (t.sp + 1)) = loByte (s.pc + 2) := hpushes.pulled hs hc (k := 0) rfl _
  have hhigh : t.read .pulledHigh (stackAddr (t.sp + 2)) = hiByte (s.pc + 2) := hpushes.pulled hs hc (k := 1) rfl _
  have hsp : t.sp + 2 = s.sp := hpushes.sp_add
  have hpc : s.pc + 2 + 1 = s.pc + 3 := by rw [BitVec.add_assoc]; rfl
  refine ⟨t, _, hjsr, returnFromSubroutine.2 t hpull, ?_⟩
  rw [hlow, hhigh, ← joinBytes_eq_word, joinBytes_loByte_hiByte, hsp, hpc]
  exact congrArg (fun u : State => u.setPc (s.pc + 3)) hframe

end Sys2Proof.Machine

end

/-! The statements of spec/45_stack_flag_system.md. BRK adds its image of P to the two pushes of an address
(`Pushes.enter`); the stack has no byte of the last page (`State.phys_stackAddr_ne`), so the vector reads as it did before
the pushes (`Pushes.readVector`). The image of P and what is pulled of it are said in numbers. -/

section

namespace Sys2Proof.Machine

/-! ### P as a byte, in numbers -/

/-- `PImage(b)` in numbers (spec/10_state.md R28). -/
theorem Status.image_eq (p : Status) (b : Bool) :
    p.image b = BitVec.ofNat 8 (128 * p.n.toNat + 64 * p.v.toNat + 32 + 16 * b.toNat + 8 * p.d.toNat +
      4 * p.i.toNat + 2 * p.z.toNat + p.c.toNat) := by
  obtain ⟨n, v, d, i, z, c⟩ := p
  revert n v d i z c b
  decide

/-- `SetP(v)` in numbers (spec/10_state.md R29). -/
theorem Status.ofByte_eq (v : Byte) :
    Status.ofByte v =
      ⟨decide (v.toNat / 128 % 2 = 1), decide (v.toNat / 64 % 2 = 1), decide (v.toNat / 8 % 2 = 1),
        decide (v.toNat / 4 % 2 = 1), decide (v.toNat / 2 % 2 = 1), decide (v.toNat % 2 = 1)⟩ := by
  have hbit (k : Nat) : v.getLsbD k = decide (v.toNat / 2 ^ k % 2 = 1) := Nat.testBit_eq_decide_div_mod_eq
  rw [Status.ofByte, hbit 7, hbit 6, hbit 3, hbit 2, hbit 1, bit0_eq]
  rfl

/-! ### Where R59 refuses nothing -/

section Allowed
variable {s : State} {n : Nat}

/-- A push instruction with no access R59 refuses. -/
theorem unlessDevice_of_not_refusedPush (h : ¬ s.refusedPush n) (t : State) :
    unlessDevice (s.pushTouches n) t = .next t :=
  unlessDevice_of_eq_false (by rwa [← Bool.not_eq_true, State.pushTouches_iff]) t

/-- A pull instruction with no access R59 refuses. -/
theorem unlessDevice_of_not_refusedPull (h : ¬ s.refusedPull n) (t : State) :
    unlessDevice (s.pullTouches n) t = .next t :=
  unlessDevice_of_eq_false (by rwa [← Bool.not_eq_true, State.pullTouches_iff]) t

end Allowed

/-! ### Flag instructions -/

/-- A flag instruction writes P and goes to the next instruction (spec/45_stack_flag_system.md R204 to R210). -/
theorem setFlags_eq {i : Instr} (hi : i.length = 1) (p : Status) (s : State) :
    setFlags p s = .next { s.after i with p := p } := by
  rw [setFlags, ← hi, State.advance_length]
  rfl

/-- Settles O56: each flag instruction is `setFlags` of P with its one flag changed. -/
theorem flagInstructionsAndNop : Obligations.FlagInstructionsAndNop := by
  refine ⟨hasEncodings_of_perm (by decide), hasEncodings_of_perm (by decide), hasEncodings_of_perm (by decide),
    hasEncodings_of_perm (by decide), hasEncodings_of_perm (by decide), hasEncodings_of_perm (by decide),
    hasEncodings_of_perm (by decide), hasEncodings_of_perm (by decide), rfl, fun s => ?_⟩
  exact ⟨setFlags_eq rfl _ s, setFlags_eq rfl _ s, setFlags_eq rfl _ s, setFlags_eq rfl _ s, setFlags_eq rfl _ s,
    setFlags_eq rfl _ s, setFlags_eq rfl _ s, congrArg Host.Outcome.next (s.advance_length .nop)⟩

/-! ### Pushes -/

section Pushes
variable {s t u : State} {vs : List Byte}

/-- What pushes leave depends on S, memory and configuration alone. -/
theorem Pushes.congr (h : Pushes s t vs) (hsp : u.sp = t.sp) (hm : u.mem = t.mem) (hc : u.config = t.config) :
    Pushes s u vs := by
  have hpeek (b : Addr) : u.peek b = t.peek b := by rw [State.peek, State.peek, hm, State.phys_congr hc]
  obtain ⟨hs, hbytes, hrest⟩ := h
  exact ⟨hsp.trans hs, fun k v hk hram => (hpeek _).trans (hbytes k v hk hram),
    fun b hb => (hpeek b).trans (hrest b hb)⟩

/-- A push instruction where R59 does not refuse it: the byte, the next instruction, and nothing else. -/
theorem pushByte_completes {i : Instr} (hi : i.length = 1) (hw : s.mem.wf = true) (hp : ¬ s.refusedPush 1) (v : Byte) :
    ∃ t, pushByte v s = .next t ∧ Pushes s t [v] ∧ { t with sp := s.sp, mem := s.mem } = s.after i := by
  refine ⟨(s.push v).after i, ?_, ((Pushes.nil s).push rfl hw (by decide) v).congr rfl rfl rfl, ?_⟩
  · rw [pushByte, unlessDevice_of_not_refusedPush hp, ← hi, State.advance_length]
  · exact congrArg (fun t : State => t.after i) (s.push_frame v)

/-- Settles O53: the byte is A, or the image of P in numbers. -/
theorem pushInstructions : Obligations.PushInstructions := by
  refine ⟨hasEncodings_of_perm (by decide), hasEncodings_of_perm (by decide), fun s hw hp =>
    ⟨pushByte_completes rfl hw hp s.a, ?_⟩⟩
  obtain ⟨t, hnext, hpushes, hframe⟩ := pushByte_completes (i := .php) rfl hw hp (s.p.image true)
  rw [s.p.image_eq true] at hpushes
  exact ⟨t, hnext, hpushes, hframe⟩

/-! ### Pulls -/

/-- Settles O54: the pulled byte in A, or its six flags in numbers. -/
theorem pullInstructions : Obligations.PullInstructions := by
  refine ⟨hasEncodings_of_perm (by decide), hasEncodings_of_perm (by decide), fun s hp => ⟨?_, ?_⟩⟩
  · rw [← Status.setNZ_eq_fromResult]
    exact (unlessDevice_of_not_refusedPull hp _).trans (congrArg Host.Outcome.next (State.advance_length _ .pla))
  · rw [← Status.ofByte_eq]
    exact (unlessDevice_of_not_refusedPull hp _).trans (congrArg Host.Outcome.next (State.advance_length _ .plp))

/-- Settles O58: the three pulls, with the flags and the address in numbers. -/
theorem returnFromInterrupt : Obligations.ReturnFromInterrupt := by
  refine ⟨hasEncodings_of_perm (by decide), fun s hp => ?_⟩
  have hnext : exec .rti s = .next s.returned := unlessDevice_of_not_refusedPull hp _
  rw [State.returned_eq, Status.ofByte_eq, joinBytes_eq_word] at hnext
  exact hnext

/-! ### Break -/

/-- No byte of the stack is one of the last page, where the vectors are, on any platform (spec/20_memory.md R51, R60). -/
theorem State.phys_stackAddr_ne (s : State) {a : Addr} (ha : 0xFF00 ≤ a.toNat) (sp : Byte) :
    s.phys a ≠ s.phys (stackAddr sp) := by
  have := sp.isLt
  have := a.isLt
  have hspace : s.config.variant.addressSpace = 65536 ∨ s.config.variant.addressSpace = 8192 := by
    cases s.config.variant <;> decide
  rw [s.phys_stackAddr, State.phys]
  obtain h | h := hspace <;> rw [h] <;> omega

/-- Pushes leave the vectors (spec/60_exceptions.md R231). -/
theorem Pushes.readVector (h : Pushes s t vs) (hc : t.config = s.config) (hd : t.draws = s.draws)
    (hr : t.dmaReads = s.dmaReads) {vec : Addr} (hlow : 0xFF00 ≤ vec.toNat) (hhigh : 0xFF00 ≤ (vec + 1).toNat) :
    t.readVector vec = s.readVector vec := by
  have hread {a : Addr} (ha : 0xFF00 ≤ a.toNat) (u : ByteUse) : t.read u a = s.read u a :=
    State.read_of_peek_eq hc hd hr (h.2.2 a (.inr fun _ _ => s.phys_stackAddr_ne ha _)) u
  rw [State.readVector, State.readVector, hread hlow, hread hhigh]

/-- Taking a break or an interrupt pushes PCH, PCL and the image of P (spec/60_exceptions.md R230). -/
theorem Pushes.enter (hw : s.mem.wf = true) (ret : Addr) (b : Bool) (vec : Addr) :
    Pushes s (s.enter ret b vec) [hiByte ret, loByte ret, s.p.image b] :=
  ((Pushes.pushAddr hw ret).push (by simp [State.pushAddr])
    (State.push_mem_wf (State.push_mem_wf hw _) _) (by simp) (s.p.image b)).congr rfl rfl rfl

/-- Taking a break or an interrupt goes where the vector says after the pushes. -/
theorem State.enter_pc (s : State) (ret : Addr) (b : Bool) (vec : Addr) :
    (s.enter ret b vec).pc = (s.enter ret b vec).readVector vec := rfl

/-- Taking a break or an interrupt by a vector in the last page leaves what `Enters` says. -/
theorem Enters.enter (hw : s.mem.wf = true) (ret : Addr) (b : Bool) {vec : Addr} (hlow : 0xFF00 ≤ vec.toNat)
    (hhigh : 0xFF00 ≤ (vec + 1).toNat) : Enters s (s.enter ret b vec) ret b vec := by
  obtain ⟨-, -, -, -, hp⟩ := s.enter_registers ret b vec
  have hframe := s.enter_frame ret b vec
  have hpushes := Pushes.enter hw ret b vec
  have hvector := hpushes.readVector (congrArg State.config hframe :) (congrArg State.draws hframe :)
    (congrArg State.dmaReads hframe :) hlow hhigh
  exact ⟨hpushes, hp, (s.enter_pc ret b vec).trans hvector, hframe⟩

end Pushes

/-- Settles O57: BRK is `State.enter` by the vector at 0xFFFE. -/
theorem break_ : Obligations.Break := by
  refine ⟨hasEncodings_of_perm (by decide), rfl, rfl, fun s hw hp => ⟨_, unlessDevice_of_not_refusedPush hp _, ?_⟩⟩
  exact Enters.enter hw (s.pc + 2) true (by decide) (by decide)

end Sys2Proof.Machine

end

/-! The statements of spec/60_exceptions.md. What a boundary takes in is said once (`State.sample_of_cons`,
`State.sample_of_nil`), and so is the order of its events (`State.event_of_free`). An instruction's step is `exec` between two
S.O. edges (`step_of_fetched`), so what it leaves in a latch or a record is read off `Meaning.frame`; an interrupt's is
`State.enter`, which RTI undoes on a plain stack (`PlainStack.rti_enter`). -/

section

namespace Sys2Proof

/-! ### How many bytes an opcode asks for -/

/-- A shape builds from as many bytes as it asks for (spec/30_encoding.md R83). -/
theorem Shape.Builds.length_eq {sh : Shape} {bs : List Byte} {i : Instr} (h : sh.Builds bs i) :
    bs.length = sh.operandBytes := by
  cases h <;> rfl

/-- An opcode asks for as many bytes as its instruction has (spec/30_encoding.md R80). -/
theorem lengthOf_opcode (i : Instr) : lengthOf i.opcode = (encode i).length := by
  obtain ⟨sh, hop, hbuilds, -⟩ := i.shapeOf_opcode
  rw [lengthOf, hop, encode, List.length_cons, hbuilds.length_eq, Nat.add_comm]

namespace Machine

/-! ### What a boundary takes in -/

section Inputs
variable {s : State} {e : Inputs} {rest : List Inputs}

/-- The next queued entry is taken in (spec/60_exceptions.md R222, R223, R246, R252; spec/20_memory.md R69). -/
theorem State.sample_of_cons (h : s.inputs = e :: rest) :
    s.sample = { s with
      draws := s.draws + 1
      inputs := rest
      mem := s.afterDma e.dma
      resLine := e.res
      rdyLine := e.rdy
      irqLine := if s.config.variant.hasIrq then e.irq else .high
      nmiPending := s.nmiPending || (s.config.variant.hasNmi && e.nmiEdge)
      soEdge := s.soEdge || (s.soActive && e.soEdge)
      soLate := s.soActive && e.soLate
      dmaReads := e.dmaReads } := by
  simp only [State.sample, State.applyInputs, h]
  rfl

/-- With nothing queued no level changes, no edge comes and no agent writes (log entry 7). -/
theorem State.sample_of_nil (h : s.inputs = []) :
    s.sample = { s with draws := s.draws + 1, soLate := false, dmaReads := [] } := by
  simp only [State.sample, State.applyInputs, h]

/-- A latched NMI stays latched when the inputs are taken in (spec/60_exceptions.md R223). -/
theorem State.sample_nmiPending (h : s.nmiPending = true) : s.sample.nmiPending = true := by
  cases hq : s.inputs with
  | nil => rw [State.sample_of_nil hq, h]
  | cons => rw [State.sample_of_cons hq, h, Bool.true_or]

/-- The byte at an address after a DMA agent's entry (spec/20_memory.md R69, log entry 12). -/
theorem State.sample_peek (h : s.inputs = e :: rest) (hw : s.mem.wf = true) (a : Addr) :
    s.sample.peek a =
      if s.config.dmaAgent = true ∧ s.kindAt a = .ram then (lastOf e.dma (s.phys a)).getD (s.peek a) else s.peek a := by
  rw [State.sample_of_cons h]
  exact State.get_afterDma hw e.dma (s.phys_lt a)

/-- A read of ram inside the step that follows (spec/20_memory.md R69, log entry 12). -/
theorem State.sample_read_ram (h : s.inputs = e :: rest) {a : Addr} (ha : s.kindAt a = .ram) (use : ByteUse) :
    s.sample.read use a =
      if s.config.dmaAgent = true then (lastOf e.dmaReads use).getD (s.sample.peek a) else s.sample.peek a := by
  have hreads : s.sample.dmaReads = e.dmaReads := by rw [State.sample_of_cons h]
  rw [State.read_of_ram ((State.kindAt_congr s.sample_config a).trans ha), State.dmaByte, s.sample_config, hreads]
  cases s.config.dmaAgent <;> simp

end Inputs

/-! ### Which event comes -/

section Events
variable {s : State}

theorem State.nmiTaken_iff (s : State) :
    s.nmiTaken = true ↔ s.config.variant.hasNmi = true ∧ s.nmiPending = true := by
  simp [State.nmiTaken]

theorem State.irqTaken_iff (s : State) :
    s.irqTaken = true ↔ s.config.variant.hasIrq = true ∧ s.irqLine = .low ∧ s.seenMask = false := by
  simp [State.irqTaken, and_assoc]

/-- RES low holds the processor in reset (spec/60_exceptions.md R228). -/
theorem State.event_of_res_low (h : s.resLine = .low) : s.event = .held := if_pos h

/-- RES high again is the reset sequence (spec/60_exceptions.md R228). -/
theorem State.event_of_inReset (hres : s.resLine = .high) (hin : s.inReset = true) : s.event = .reset := by
  simp [State.event, hres, hin]

/-- RDY low halts what is not in reset (spec/60_exceptions.md R247). -/
theorem State.event_of_rdy_low (hres : s.resLine = .high) (hin : s.inReset = false) (hrdy : s.rdyLine = .low) :
    s.event = .halted := by
  simp [State.event, hres, hin, hrdy]

/-- Neither in reset nor halted, NMI comes before IRQ and IRQ before an instruction (spec/60_exceptions.md R228). -/
theorem State.event_of_free (hres : s.resLine = .high) (hin : s.inReset = false) (hrdy : s.rdyLine = .high) :
    s.event = if s.nmiTaken then .nmi else if s.irqTaken then .irq else .instruction := by
  simp [State.event, hres, hin, hrdy]

/-- Only a pending NMI begins the NMI sequence (spec/60_exceptions.md R227). -/
theorem State.nmiTaken_of_event (h : s.event = .nmi) : s.nmiTaken = true := by
  unfold State.event at h
  split_ifs at h with _ _ _ hnmi
  exact hnmi

/-- Only a low IRQ line begins the IRQ sequence (spec/60_exceptions.md R226). -/
theorem State.irqTaken_of_event (h : s.event = .irq) : s.irqTaken = true := by
  unfold State.event at h
  split_ifs at h with _ _ _ _ hirq
  exact hirq

end Events

/-! ### The step of an instruction -/

section Instruction
variable {s t : State} {i : Instr} {rest : List Byte}

/-- Where three bytes at PC decode, the instruction is the fetched one: no instruction has more (spec/30_encoding.md R81). -/
theorem State.fetched_of_decode (h : decode ((List.range 3).map s.fetchByte) = .ok (i, rest)) : s.fetched = some i := by
  have hbytes := eq_encode_append_of_decode h
  have hop : s.opcodeByte = i.opcode := by
    rw [← State.fetchByte_zero]
    exact (List.cons.inj hbytes).1
  have hle : (encode i).length ≤ 3 := by
    have hlength := congrArg List.length hbytes
    simp only [List.length_map, List.length_range, List.length_append] at hlength
    omega
  have hfetch : s.fetch = encode i := by
    calc s.fetch
      _ = ((List.range 3).map s.fetchByte).take (encode i).length := by
        rw [State.fetch, hop, lengthOf_opcode, ← List.map_take, List.take_range, Nat.min_eq_left hle]
      _ = encode i := by rw [hbytes, List.take_left]
  have hdecode := decode_encode_append i []
  rw [List.append_nil] at hdecode
  rw [State.fetched, hfetch, hdecode]

/-- The step of an instruction is `exec` on the state after the inputs and the S.O. edge, and then the late edge
(spec/60_exceptions.md R246, R252). -/
theorem step_of_fetched (he : s.sample.event = .instruction) (hf : s.sample.applyEdge.fetched = some i) :
    step s = lateEdge (exec i (s.sample.applyEdge.begin i)) := by
  rw [step, he, act, runInstruction, hf]

/-- What the step of an instruction leaves is what `exec` leaves, after the late edge. -/
theorem exec_of_step (he : s.sample.event = .instruction) (hf : s.sample.applyEdge.fetched = some i)
    (h : step s = .next t) : ∃ u, exec i (s.sample.applyEdge.begin i) = .next u ∧ u.applyLate = t :=
  (lateEdge_next_iff _ _).1 ((step_of_fetched he hf).symm.trans h)

theorem State.applyEdge_of_no_edge (h : s.soEdge = false) : s.applyEdge = s := by simp [State.applyEdge, h]

theorem State.applyLate_of_no_edge (h : s.soLate = false) : s.applyLate = s := by simp [State.applyLate, h]

/-- Without a late S.O. edge nothing comes after the instruction. -/
theorem lateEdge_exec (h : s.soLate = false) (i : Instr) : lateEdge (exec i s) = exec i s := by
  cases hr : exec i s with
  | next t =>
    have hlate : t.soLate = s.soLate := (congrArg State.soLate (meaning_of_exec_next hr).frame :)
    rw [lateEdge, State.applyLate_of_no_edge (hlate.trans h)]
  | fault => rfl
  | refused => rfl

/-- With nothing queued and every pin inactive a boundary changes only the numbers a step keeps, and an instruction comes. -/
theorem State.sample_of_quiet (hq : s.inputs = []) (hl : s.soLate = false) :
    s.sample = { s with draws := s.draws + 1, dmaReads := [] } := by
  rw [State.sample_of_nil hq, State.mk.injEq]
  simp [hl]

/-- With no request an instruction comes (spec/60_exceptions.md R252). -/
theorem State.event_of_quiet (hres : s.resLine = .high) (hin : s.inReset = false) (hrdy : s.rdyLine = .high)
    (hnmi : s.nmiPending = false) (hirq : s.irqLine = .high) : s.event = .instruction := by
  rw [State.event_of_free hres hin hrdy]
  simp [State.nmiTaken, hnmi, State.irqTaken, hirq]

end Instruction

/-- Settles O7: the fetched instruction is the one that three bytes decode to, and a quiet boundary adds nothing to `exec`. -/
theorem stepRunsTheDecodedInstruction : Obligations.StepRunsTheDecodedInstruction := by
  refine ⟨fun s i rest he hd => step_of_fetched he (State.fetched_of_decode hd), ?_⟩
  intro s i rest hq hres hin hrdy hnmi hirq hedge hlate hd
  have hsample := State.sample_of_quiet hq hlate
  have hevent : s.sample.event = .instruction := by
    rw [hsample]
    exact State.event_of_quiet hres hin hrdy hnmi hirq
  have hbefore : s.sample.applyEdge = { s with draws := s.draws + 1, dmaReads := [] } := by
    rw [hsample]
    exact State.applyEdge_of_no_edge hedge
  rw [step_of_fetched hevent (State.fetched_of_decode (hbefore ▸ hd)), hbefore]
  exact lateEdge_exec (s := State.begin { s with draws := s.draws + 1, dmaReads := [] } i) hlate i

/-! ### The latches -/

/-- Only the NMI and the reset sequence clear a latched NMI (spec/60_exceptions.md R223). -/
theorem step_keeps_nmiPending {s t : State} (h : step s = .next t) (hp : s.nmiPending = true)
    (hnmi : s.sample.event ≠ .nmi) (hreset : s.sample.event ≠ .reset) : t.nmiPending = true := by
  have hsample := State.sample_nmiPending hp
  rcases step_next_cases h with
    ⟨-, rfl⟩ | ⟨he, -⟩ | ⟨-, rfl⟩ | ⟨he, -⟩ | ⟨-, u, hu, rfl⟩ | ⟨-, i, u, -, hu, rfl⟩
  · exact hsample
  · exact absurd he hreset
  · exact hsample
  · exact absurd he hnmi
  · rw [State.takeIrq_next hu, State.applyLate_eq, State.applyEdge_eq]
    exact (congrArg State.nmiPending (State.enter_frame _ _ _ _) :).trans hsample
  · rw [State.applyEdge_eq] at hu
    rw [State.applyLate_eq]
    exact (congrArg State.nmiPending (meaning_of_exec_next hu).frame :).trans hsample

/-- Held in reset or halted, an S.O. edge stays latched (log entry 18). -/
theorem step_keeps_soEdge {s t : State} (h : step s = .next t) (hs : s.sample.soEdge = true)
    (he : s.sample.event = .held ∨ s.sample.event = .halted) : t.soEdge = true := by
  have hkept : s.sample.keepLate.soEdge = true := Bool.or_eq_true_iff.2 (.inl hs)
  rw [step] at h
  obtain he | he := he <;> rw [he] at h <;> obtain rfl := Host.Outcome.next.inj h <;> exact hkept

/-- Settles O8: the queue's entry field by field, the latches by the step's events, and the order of the events. -/
theorem inputsAndPriorityAtABoundary : Obligations.InputsAndPriorityAtABoundary := by
  intro s
  refine ⟨fun e rest hq => ?_, fun hq => ?_, fun t h => ⟨step_keeps_nmiPending h, step_keeps_soEdge h⟩,
    State.event_of_res_low, fun hres hin => ?_, fun hres hin hrdy => ?_, fun hres hin hrdy => ?_⟩
  · refine ⟨?_, ?_, ?_, ?_, ?_, ?_, ?_, State.sample_peek hq, fun use a ha => State.sample_read_ram hq ha use⟩ <;>
      simp [State.sample_of_cons hq, State.soActive, and_assoc]
  · rw [State.sample_of_nil hq]
    exact ⟨rfl, rfl, rfl⟩
  · exact State.event_of_inReset hres (s.sample_inReset.trans hin)
  · exact State.event_of_rdy_low hres (s.sample_inReset.trans hin) hrdy
  · rw [State.event_of_free hres (s.sample_inReset.trans hin) hrdy, ← s.sample_config, ← State.nmiTaken_iff,
      ← State.irqTaken_iff]
    exact ⟨fun hnmi => if_pos hnmi, fun hnmi => ⟨fun hirq => by rw [if_neg hnmi, if_pos hirq],
      fun hirq => by rw [if_neg hnmi, if_neg hirq]⟩⟩

/-- Settles O13: a halted step only keeps a late S.O. edge for later. -/
theorem noProgressWhileRdyIsLow : Obligations.NoProgressWhileRdyIsLow := by
  intro s hres hin hrdy
  have hevent := State.event_of_rdy_low hres (s.sample_inReset.trans hin) hrdy
  refine ⟨s.sample.halt, by rw [step, hevent, act], rfl, s.sample_a, s.sample_x, s.sample_y, s.sample_sp, s.sample_pc,
    s.sample_p, State.sample_mem_of_no_agent, State.sample_nmiPending⟩

/-! ### The UM6507 -/

/-- Settles O14: the invariant keeps requests off pins that are not there, when the inputs are taken in too. -/
theorem um6507TakesNoInterrupt : Obligations.Um6507TakesNoInterrupt := by
  intro s hs hv
  obtain ⟨-, hreq, -⟩ := s.wf_iff.1 hs
  have hnoNmi : ¬ s.sample.config.variant.hasNmi = true := by simp [hv, Variant.hasNmi]
  have hnoIrq : ¬ s.sample.config.variant.hasIrq = true := by simp [hv, Variant.hasIrq]
  refine ⟨hreq.sample.irq (Bool.eq_false_of_not_eq_true hnoIrq),
    Bool.eq_false_of_not_eq_true (mt hreq.sample.nmi hnoNmi), fun he => ?_, fun he => ?_, ?_⟩
  · exact hnoNmi (s.sample.nmiTaken_iff.1 (State.nmiTaken_of_event he)).1
  · exact hnoIrq (s.sample.irqTaken_iff.1 (State.irqTaken_of_event he)).1
  · rw [State.phys, hv]
    rfl

/-! ### The mask the IRQ check sees -/

section SeenMask
variable {s : State}

theorem State.seenMask_of_not_latent (h : s.maskLatent = false) : s.seenMask = s.p.i := by
  rw [State.seenMask, h]

theorem State.seenMask_of_new (h : s.config.irqMaskLatency = .new) : s.seenMask = s.p.i := by
  rw [State.seenMask, h]
  cases s.maskLatent <;> rfl

theorem State.seenMask_of_old (hl : s.maskLatent = true) (h : s.config.irqMaskLatency = .old) :
    s.seenMask = s.iBefore := by
  rw [State.seenMask, hl, h]

/-- Under `both` a free bit decides (spec/60_exceptions.md R229). -/
theorem State.seenMask_of_both (hl : s.maskLatent = true) (h : s.config.irqMaskLatency = .both) :
    s.seenMask = s.iBefore ∨ s.seenMask = s.p.i := by
  rw [State.seenMask, hl, h]
  exact ite_eq_or_eq _ _ _

end SeenMask

theorem masksLate_iff (k : Instr) : masksLate k = true ↔ k.mnemonic ∈ [.cli, .sei, .plp] := by
  simp [masksLate, or_assoc]

/-- What the step of an instruction records for the next IRQ check (spec/60_exceptions.md R229, R252). -/
theorem step_records_mask {s t : State} {k : Instr} (he : s.sample.event = .instruction)
    (hf : s.sample.applyEdge.fetched = some k) (h : step s = .next t) :
    t.maskLatent = masksLate k ∧ t.iBefore = s.p.i := by
  obtain ⟨u, hu, rfl⟩ := exec_of_step he hf h
  have hframe := (meaning_of_exec_next hu).frame
  have hold : s.sample.applyEdge.p.i = s.p.i := by rw [State.applyEdge_eq, s.sample_p]
  rw [State.applyLate_eq]
  exact ⟨(congrArg State.maskLatent hframe :), (congrArg State.iBefore hframe :).trans hold⟩

/-- Settles O10: the two records of the step and the configuration's setting choose the mask. -/
theorem maskSeenAfterAnInstruction : Obligations.MaskSeenAfterAnInstruction := by
  intro s t k he hf h
  obtain ⟨hlatent, hbefore⟩ := step_records_mask he hf h
  obtain ⟨hconfig, -, -⟩ := stepKeepsConfiguration s t h
  rw [← masksLate_iff, ← hlatent, ← hbefore, ← hconfig, ← t.sample_config, ← t.sample_maskLatent, ← t.sample_iBefore,
    ← t.sample_p, Bool.not_eq_true]
  exact ⟨State.seenMask_of_not_latent, State.seenMask_of_new, State.seenMask_of_old, State.seenMask_of_both⟩

/-! ### S.O. edges -/

@[simp] theorem State.applyEdge_v (s : State) : s.applyEdge.p.v = (s.p.v || s.soEdge) := by rw [State.applyEdge_eq]

@[simp] theorem State.applyLate_v (s : State) : s.applyLate.p.v = (s.p.v || s.soLate) := by rw [State.applyLate_eq]

@[simp] theorem State.applyEdge_soLate (s : State) : s.applyEdge.soLate = s.soLate := by rw [State.applyEdge_eq]

/-- A late edge sets V after the instruction has written it (spec/60_exceptions.md R246). -/
theorem step_v_of_instruction {s t : State} {i : Instr} (he : s.sample.event = .instruction)
    (hf : s.sample.applyEdge.fetched = some i) (h : step s = .next t) :
    ∃ u, exec i (s.sample.applyEdge.begin i) = .next u ∧ t.p.v = (u.p.v || s.sample.soLate) := by
  obtain ⟨u, hu, rfl⟩ := exec_of_step he hf h
  have hlate : u.soLate = s.sample.applyEdge.soLate := (congrArg State.soLate (meaning_of_exec_next hu).frame :)
  exact ⟨u, hu, by rw [State.applyLate_v, hlate, State.applyEdge_soLate]⟩

/-- Where the instruction does not write V, the S.O. edges alone do (spec/60_exceptions.md R246). -/
theorem step_v_of_not_written {s t : State} {i : Instr} (he : s.sample.event = .instruction)
    (hf : s.sample.applyEdge.fetched = some i) (h : step s = .next t)
    (hi : i.mnemonic ∉ [.adc, .sbc, .bit, .clv, .plp, .rti]) :
    t.p.v = (s.p.v || s.sample.soEdge || s.sample.soLate) := by
  obtain ⟨u, hu, hv⟩ := step_v_of_instruction he hf h
  have hkept : u.p.v = (s.sample.applyEdge.begin i).p.v :=
    by_contra fun hne => hi ((meaning_of_exec_next hu).writes_v hne)
  rw [hv, hkept, State.begin_p, State.applyEdge_v, s.sample_p]

/-- Entering a break or an interrupt does not write V, and a late edge sets it (spec/60_exceptions.md R230, R246). -/
theorem State.enter_applyLate_v (s : State) (ret : Addr) (b : Bool) (vec : Addr) :
    (s.enter ret b vec).applyLate.p.v = (s.p.v || s.soLate) := by
  obtain ⟨-, -, -, -, hp⟩ := s.enter_registers ret b vec
  have hlate : (s.enter ret b vec).soLate = s.soLate := (congrArg State.soLate (s.enter_frame ret b vec) :)
  rw [State.applyLate_v, hp, hlate]

/-- An interrupt sequence does not write V: the S.O. edges alone do (spec/60_exceptions.md R230, R246). -/
theorem step_v_of_interrupt {s t : State} (he : s.sample.event = .nmi ∨ s.sample.event = .irq) (h : step s = .next t) :
    t.p.v = (s.p.v || s.sample.soEdge || s.sample.soLate) := by
  have hbefore : (s.sample.applyEdge.p.v || s.sample.applyEdge.soLate) =
      (s.p.v || s.sample.soEdge || s.sample.soLate) := by
    rw [State.applyEdge_v, State.applyEdge_soLate, s.sample_p]
  rw [step] at h
  obtain he | he := he <;> rw [he] at h <;> obtain ⟨u, hu, rfl⟩ := (lateEdge_next_iff _ _).1 h
  · rw [State.takeNmi_next hu, State.enter_applyLate_v]
    exact hbefore
  · rw [State.takeIrq_next hu, State.enter_applyLate_v]
    exact hbefore

/-- Where S.O. is not in use no edge comes (spec/60_exceptions.md R246). -/
theorem State.no_edges_of_not_soActive {s : State} (hs : s.wf = true) (ha : s.soActive = false) :
    s.sample.soEdge = false ∧ s.sample.soLate = false := by
  obtain ⟨-, hreq, -⟩ := s.wf_iff.1 hs
  have hnone : ¬ s.sample.soActive = true := by
    rw [State.soActive, s.sample_config, ← State.soActive, ha]
    exact Bool.false_ne_true
  exact ⟨Bool.eq_false_of_not_eq_true (mt hreq.sample.edge hnone), Bool.eq_false_of_not_eq_true (mt hreq.sample.late hnone)⟩

/-- Settles O15: V after the step is V, the edge or the late edge, where the step itself does not write V. -/
theorem setOverflowInput : Obligations.SetOverflowInput := by
  have hunused {s t : State} (hv : t.p.v = (s.p.v || s.sample.soEdge || s.sample.soLate)) (hs : s.wf = true)
      (ha : s.soActive = false) : t.p.v = s.p.v := by
    obtain ⟨hedge, hlate⟩ := State.no_edges_of_not_soActive hs ha
    rw [hv, hedge, hlate, Bool.or_false, Bool.or_false]
  refine ⟨fun s t i he hf h => ⟨fun hlate => ?_, fun hi => ?_⟩, fun s t he h => ?_⟩
  · obtain ⟨u, -, hv⟩ := step_v_of_instruction he hf h
    rw [hv, hlate, Bool.or_true]
  · have hv := step_v_of_not_written he hf h hi
    exact ⟨fun hedge => by simp [hv, hedge], hunused hv⟩
  · have hv := step_v_of_interrupt he h
    exact ⟨fun hedge => by rw [hv]; obtain h | h := hedge <;> simp [h], hunused hv⟩

/-! ### The interrupt sequences -/

/-- Where the pushes go depends on the configuration and S alone. -/
theorem State.refusedPush_congr {s t : State} (hc : t.config = s.config) (hsp : t.sp = s.sp) (n : Nat) :
    t.refusedPush n ↔ s.refusedPush n := by
  simp only [State.refusedPush, State.sideEffectAt_congr hc, hsp]

@[simp] theorem State.applyEdge_mem (s : State) : s.applyEdge.mem = s.mem := by rw [State.applyEdge_eq]

/-- An interrupt sequence by a vector in the last page, and then the late S.O. edge (spec/60_exceptions.md R230, R246). -/
theorem lateEdge_takeBreak {s : State} (hw : s.mem.wf = true) (hp : ¬ s.refusedPush 3) (ret : Addr) (b : Bool) {vec : Addr}
    (hlow : 0xFF00 ≤ vec.toNat) (hhigh : 0xFF00 ≤ (vec + 1).toNat) :
    ∃ u, lateEdge (s.takeBreak ret b vec) =
        .next (if s.soLate = true then { u with p := { u.p with v := true }, soLate := false } else u) ∧
      Enters s u ret b vec := by
  have hlate : (s.enter ret b vec).soLate = s.soLate := (congrArg State.soLate (s.enter_frame ret b vec) :)
  refine ⟨s.enter ret b vec, ?_, Enters.enter hw ret b hlow hhigh⟩
  rw [State.takeBreak, unlessDevice_of_not_refusedPush hp, lateEdge, State.applyLate, hlate]
  rfl

/-- Settles O9: each sequence is `State.enter` by its vector, on the state after the inputs and the S.O. edge. -/
theorem interruptSequences : Obligations.InterruptSequences := by
  refine ⟨rfl, fun s hw hp => ?_⟩
  have hmem : s.sample.applyEdge.mem.wf = true := by
    rw [State.applyEdge_mem]
    exact State.sample_mem_wf hw
  have hpush : ¬ s.sample.applyEdge.refusedPush 3 := by rwa [State.refusedPush_congr (s := s) (by simp) (by simp)]
  have hpc : s.sample.applyEdge.pc = s.pc := by simp
  rw [← hpc, ← s.sample.applyEdge_soLate]
  refine ⟨fun he => ?_, fun he => ?_⟩ <;> rw [step, he, act]
  · exact lateEdge_takeBreak (s := { s.sample.applyEdge with nmiPending := false, maskLatent := false }) hmem hpush _ _
      (by decide) (by decide)
  · exact lateEdge_takeBreak (s := { s.sample.applyEdge with maskLatent := false }) hmem hpush _ _ (by decide) (by decide)

/-! ### Returning from an interrupt -/

/-- On a plain stack RTI right after `State.enter` gives every register and flag back and goes on at the pushed address
(spec/60_exceptions.md R232, R236). -/
theorem PlainStack.rti_enter {s : State} (hs : PlainStack s) (hw : s.mem.wf = true) (ret : Addr) (b : Bool) (vec : Addr) :
    ∃ u, exec .rti (s.enter ret b vec) = .next u ∧ { u with mem := s.mem } = { s with pc := ret } := by
  have hpushes := Pushes.enter hw ret b vec
  have hframe := s.enter_frame ret b vec
  have hc : (s.enter ret b vec).config = s.config := (congrArg State.config hframe :)
  have hflags : (s.enter ret b vec).pulled .pulledStatus 0 = s.p.image b := hpushes.pulled hs hc rfl _
  have hlow : (s.enter ret b vec).pulled .pulledLow 1 = loByte ret := hpushes.pulled hs hc rfl _
  have hhigh : (s.enter ret b vec).pulled .pulledHigh 2 = hiByte ret := hpushes.pulled hs hc rfl _
  have hsp : (s.enter ret b vec).sp + 3 = s.sp := hpushes.sp_add
  refine ⟨_, unlessDevice_of_eq_false ((hs.congr hc).not_pullTouches 3) _, ?_⟩
  rw [State.returned_eq, hflags, hlow, hhigh, hsp, Status.ofByte_image, joinBytes_loByte_hiByte]
  exact congrArg (fun t : State => t.setPc ret) hframe

/-- On a plain stack a break or an interrupt is taken, and RTI undoes it. -/
theorem PlainStack.rti_takeBreak {s : State} (hs : PlainStack s) (hw : s.mem.wf = true) (ret : Addr) (b : Bool)
    (vec : Addr) :
    ∃ t u, s.takeBreak ret b vec = .next t ∧ exec .rti t = .next u ∧ { u with mem := s.mem } = { s with pc := ret } := by
  obtain ⟨u, hu, hback⟩ := hs.rti_enter hw ret b vec
  exact ⟨_, u, unlessDevice_of_eq_false (hs.not_pushTouches 3) _, hu, hback⟩

/-- Settles O59: BRK, NMI and IRQ each take a break, which RTI undoes. -/
theorem returnUndoesBreakAndInterrupt : Obligations.ReturnUndoesBreakAndInterrupt := by
  intro s hw hs
  have hnmi : PlainStack { s with nmiPending := false, maskLatent := false } := hs.congr rfl
  have hirq : PlainStack { s with maskLatent := false } := hs.congr rfl
  exact ⟨hs.rti_takeBreak hw (s.pc + 2) true irqVector, hnmi.rti_takeBreak hw s.pc false nmiVector,
    hirq.rti_takeBreak hw s.pc false irqVector⟩

end Machine
end Sys2Proof

end

/-! The statements of spec/70_reset_and_hazards.md. The pins settle the event (`State.event_of_res_low`,
`State.event_of_inReset`), and neither event can refuse; what is left to say is what `State.hold` and `State.resetSequence`
leave alone. -/

section

namespace Sys2Proof.Machine

/-! ### Held in reset -/

/-- Where RES is low the step is `State.hold` (spec/70_reset_and_hazards.md R260). -/
theorem step_of_res_low {s : State} (hres : s.sample.resLine = .low) : step s = .next s.sample.hold := by
  rw [step, State.event_of_res_low hres, act]

/-- Being held in reset changes the record of the reset and the S.O. latches only (spec/70_reset_and_hazards.md R260, log
entry 16). -/
theorem State.hold_frame (s : State) :
    { s.hold with inReset := s.inReset, soEdge := s.soEdge, soLate := s.soLate } = s := rfl

/-- Settles O11: a step with RES low is `State.hold` on the state after the inputs, which keep every register and flag. -/
theorem nothingRunsWhileResIsLow : Obligations.NothingRunsWhileResIsLow := by
  intro s hres
  have hframe : { s.sample.hold with inReset := s.inReset, soEdge := s.sample.soEdge, soLate := s.sample.soLate } =
      s.sample := by
    rw [← s.sample_inReset]
    exact s.sample.hold_frame
  exact ⟨s.sample.hold, step_of_res_low hres, rfl, hframe, s.sample_a, s.sample_x, s.sample_y, s.sample_sp, s.sample_pc,
    s.sample_p, State.sample_mem_of_no_agent⟩

/-! ### The reset sequence -/

/-- Where RES is high again the step is the reset sequence (spec/70_reset_and_hazards.md R262). -/
theorem step_of_inReset {s : State} (hres : s.sample.resLine = .high) (hin : s.inReset = true) :
    step s = .next s.sample.resetSequence := by
  rw [step, State.event_of_inReset hres (s.sample_inReset.trans hin), act]

/-- The reset sequence goes where the bytes at 0xFFFC and 0xFFFD say, low byte first (spec/70_reset_and_hazards.md R262). -/
theorem State.resetSequence_pc (s : State) :
    s.resetSequence.pc = word (s.read .vectorLow 0xFFFC) (s.read .vectorHigh 0xFFFD) :=
  joinBytes_eq_word _ _

/-- The reset sequence changes registers, flags, latches and the records of I and of the reset only: it writes no memory
(spec/70_reset_and_hazards.md R261, R262, log entry 16). -/
theorem State.resetSequence_frame (s : State) :
    { s.resetSequence with
      a := s.a, x := s.x, y := s.y, sp := s.sp, pc := s.pc, p := s.p, nmiPending := s.nmiPending, soEdge := s.soEdge
      soLate := s.soLate, inReset := s.inReset, iBefore := s.iBefore, maskLatent := s.maskLatent } = s := rfl

/-- Settles O12: the step is the reset sequence on the state after the inputs, and leaves the memory and configuration
found there. -/
theorem resetSequence : Obligations.ResetSequence := by
  intro s hres hin
  have hframe := s.sample.resetSequence_frame
  have hmem : s.sample.resetSequence.mem = s.sample.mem := (congrArg State.mem hframe :)
  have hconfig : s.sample.resetSequence.config = s.sample.config := (congrArg State.config hframe :)
  exact ⟨s.sample.resetSequence, step_of_inReset hres hin, rfl, s.sample.resetSequence_pc, rfl, hmem,
    fun hd => hmem.trans (State.sample_mem_of_no_agent hd), rfl, hconfig.trans s.sample_config⟩

end Sys2Proof.Machine

end
